-- ==== Sys2Proof/Word.lean ====
section
/-! DEFINITION. The bit-vector types of the block and of the machine its instructions name (spec 10_state.md R32 to
R36, R40; 30_encoding.md R70). Bit 0 is the least significant bit (R7). -/
namespace Sys2Proof

/-- A 64-bit machine value: a general register, an address, a helper operand (R40, R430). -/
abbrev Word := BitVec 64

/-- A 32-bit instruction word (R32, R70). -/
abbrev InstrWord := BitVec 32

/-- One byte of memory (R50). -/
abbrev Byte := BitVec 8

/-- A 4-bit unsigned value (R36). -/
abbrev Nibble := BitVec 4

/-- A register identifier: 16 values, identifier n encoded as nibble n (R33). -/
abbrev RegId := BitVec 4

/-- An 8-bit interrupt identifier (R34). -/
abbrev IntId := BitVec 8

/-- A 16-bit port identifier (R35). -/
abbrev Port := BitVec 16

end Sys2Proof
end

