-- ==== Sys2Proof/Syntax.lean ====
section
/-! DEFINITION. Syntax: the enumerated operand types (spec 10_state.md R37), the kinds of the bit-slice unit
(30_encoding.md R73), and the instructions, one constructor for each row of spec/opcode_table.json (R134). A sub-code
value that the table gives a row of its own (system-control func, branch condition, load-immediate type, precision,
cast pair) is part of the constructor; the operands are the row's used fields (R132) at their widths (R133). -/
namespace Sys2Proof

/-- The three float precisions, IEEE binary16, binary32 and binary64 (R37, R124, R461). -/
inductive FloatPrec
  | half | single | double
  deriving DecidableEq, Repr, Inhabited

/-- The 13 branch conditions (R37, R122). -/
inductive BranchCond
  | always | eq | ez | lt | le | ltu | leu | ne | nz | ge | gt | geu | gtu
  deriving DecidableEq, Repr

/-- The 8 load-immediate types (R37, R123). -/
inductive LiType
  | lli | llis | lui | luis | lti | ltis | ltui | ltuis
  deriving DecidableEq, Repr

/-- The compare-order flag of `cmpi` (R37, R125). -/
inductive CompareOrder
  | registerFirst | immediateFirst
  deriving DecidableEq, Repr

/-- The five instruction formats (R2, R38). -/
inductive Format
  | e | r | m | f | b
  deriving DecidableEq, Repr

/-- The 16 operations of the arithmetic and bitwise family (R115, 46_alu.md). -/
inductive AluOp
  | add | sub | imul | idiv | umul | udiv | rem | mod
  | and | or | nor | xor | shl | asr | lsr | bit
  deriving DecidableEq, Repr

/-- The helpers that may answer an absent result (R444). -/
inductive DivOp
  | idiv | udiv | rem | mod
  deriving DecidableEq, Repr

/-- The helpers whose result at an amount of 64 or more is a parameter (R441, R442). -/
inductive ShiftOp
  | shl | shr | asr
  deriving DecidableEq, Repr

/-- The 16 operations of the float family (R400, R460). -/
inductive FloatOp
  | fcmp | fto | ffrom | fneg | fabs | fadd | fsub | fmul | fdiv | fma | fsqrt | fmin | fmax | fsat | fcnv | fnan
  deriving DecidableEq, Repr

/-- The slice kinds of the bit-slice unit (R73). -/
inductive SliceKind
  | bool | nibble | u8 | u16 | u32 | u64
  deriving DecidableEq, Repr

/-- The containers of the bit-slice unit (R73, R77). -/
inductive Container
  | nibble | u8 | u16 | u32 | u64
  deriving DecidableEq, Repr

/-- W(S), the width of a slice kind in bits (R73). -/
abbrev SliceKind.width : SliceKind → Nat
  | .bool => 1 | .nibble => 4 | .u8 => 8 | .u16 => 16 | .u32 => 32 | .u64 => 64

/-- W(C), the width of a container in bits (R73, R77). -/
abbrev Container.width : Container → Nat
  | .nibble => 4 | .u8 => 8 | .u16 => 16 | .u32 => 32 | .u64 => 64

/-- A format record over numbers of any size: what a model with wide operands gives a pack unit (R107, decision D31).
A format uses the fields it has. -/
structure WideRec where
  rde : Nat := 0
  rs1 : Nat := 0
  rs2 : Nat := 0
  func : Nat := 0
  imm : Nat := 0
  deriving DecidableEq, Repr

/-- The 98 mnemonics of rules R120 to R123 (R137), the `mnemonic` output of the decoder port (R142). -/
inductive Mnemonic
  | int | iret | ires | usr | outr | outi | inr | ini | jal | jalr
  | ret | retr | bra | beq | bez | blt | ble | bltu | bleu | bne
  | bnz | bge | bgt | bgeu | bgtu | push | pop | enter | leave | lli
  | llis | lui | luis | lti | ltis | ltui | ltuis | lw | lh | lhs
  | lq | lqs | lb | lbs | sw | sh | sq | sb | cmpr | cmpi
  | addr | addi | subr | subi | imulr | imuli | idivr | idivi | umulr | umuli
  | udivr | udivi | remr | remi | modr | modi | andr | andi | orr | ori
  | norr | nori | xorr | xori | shlr | shli | asrr | asri | lsrr | lsri
  | bitr | biti | fcmp | fto | ffrom | fneg | fabs | fadd | fsub | fmul
  | fdiv | fma | fsqrt | fmin | fmax | fsat | fcnv | fnan
  deriving DecidableEq, Repr

/-- The instructions that an opcode selects alone, with no sub-code: SINGLE(m) of R110. 55 values. -/
inductive SingleOp
  | outr | outi | inr | ini
  | jal | jalr | ret | retr
  | push | pop | enter | leave
  | lw | lh | lhs | lq | lqs | lb | lbs | sw | sh | sq | sb
  | cmpr
  | aluReg (op : AluOp)
  | aluImm (op : AluOp)
  deriving DecidableEq, Repr

/-- The four operations of system control, told apart by its sub-code (R121). -/
inductive SysctlOp
  | int | iret | ires | usr
  deriving DecidableEq, Repr

/-- The float operations whose sub-code is one precision, FLOAT(m) of R110: all but the cast (R116). -/
inductive PrecOp
  | fcmp | fto | ffrom | fneg | fabs | fadd | fsub | fmul | fdiv | fma | fsqrt | fmin | fmax | fsat | fnan
  deriving DecidableEq, Repr

/-- What an opcode selects: the kinds of R110. 76 values (R137). -/
inductive OpKind
  | single (m : SingleOp)
  | sysctl
  | branch
  | loadImm
  | cmpi
  | float (op : PrecOp)
  | fcnv
  deriving DecidableEq, Repr

/-- What a variant is, apart from its operands: its kind and its decoded sub-code (R39, R110). -/
inductive Head
  | single (m : SingleOp)
  | sysctl (op : SysctlOp)
  | branch (c : BranchCond)
  | loadImm (t : LiType)
  | cmpi (o : CompareOrder)
  | float (op : PrecOp) (p : FloatPrec)
  | fcnv (src dst : FloatPrec)
  deriving DecidableEq, Repr

/-- The kind of a head. -/
def Head.kind : Head → OpKind
  | .single m => .single m
  | .sysctl _ => .sysctl
  | .branch _ => .branch
  | .loadImm _ => .loadImm
  | .cmpi _ => .cmpi
  | .float op _ => .float op
  | .fcnv _ _ => .fcnv

/-- The 4-bit fields of the formats, and the operands that are named after them (R90, R132). -/
inductive NibbleField
  | rde | rs1 | rs2 | func
  deriving DecidableEq, Repr

/-- An instruction: one constructor for each of the 136 rows of spec/opcode_table.json (R134, R137). Operand names are
the table's: `rde`, `rs1`, `rs2` register identifiers, `func` the load/store shift amount, `imm` the raw immediate
(R108), `intr` the interrupt identifier, `order` the compare order. -/
inductive Instr
  -- System control (R200 to R204)
  | int (intr : IntId)
  | iret
  | ires
  | usr (rde : RegId)
  -- Port I/O (R205 to R209)
  | outr (rde rs1 : RegId)
  | outi (rs1 : RegId) (imm : Port)
  | inr (rde rs1 : RegId)
  | ini (rde : RegId) (imm : Port)
  -- Control flow (R230 to R234)
  | jal (rs1 : RegId) (imm : BitVec 16)
  | jalr (rde rs1 : RegId) (imm : BitVec 16)
  | ret
  | retr (rs1 : RegId)
  -- Branch (R235 to R248)
  | bra (imm : BitVec 20)
  | beq (imm : BitVec 20)
  | bez (imm : BitVec 20)
  | blt (imm : BitVec 20)
  | ble (imm : BitVec 20)
  | bltu (imm : BitVec 20)
  | bleu (imm : BitVec 20)
  | bne (imm : BitVec 20)
  | bnz (imm : BitVec 20)
  | bge (imm : BitVec 20)
  | bgt (imm : BitVec 20)
  | bgeu (imm : BitVec 20)
  | bgtu (imm : BitVec 20)
  -- Stack (R270 to R274)
  | push (rs1 : RegId)
  | pop (rde : RegId)
  | enter
  | leave
  -- Load immediate (R290 to R298)
  | lli (rde : RegId) (imm : BitVec 16)
  | llis (rde : RegId) (imm : BitVec 16)
  | lui (rde : RegId) (imm : BitVec 16)
  | luis (rde : RegId) (imm : BitVec 16)
  | lti (rde : RegId) (imm : BitVec 16)
  | ltis (rde : RegId) (imm : BitVec 16)
  | ltui (rde : RegId) (imm : BitVec 16)
  | ltuis (rde : RegId) (imm : BitVec 16)
  -- Indexed loads and stores (R310 to R321)
  | lw (rde rs1 rs2 : RegId) (func : Nibble) (imm : BitVec 8)
  | lh (rde rs1 rs2 : RegId) (func : Nibble) (imm : BitVec 8)
  | lhs (rde rs1 rs2 : RegId) (func : Nibble) (imm : BitVec 8)
  | lq (rde rs1 rs2 : RegId) (func : Nibble) (imm : BitVec 8)
  | lqs (rde rs1 rs2 : RegId) (func : Nibble) (imm : BitVec 8)
  | lb (rde rs1 rs2 : RegId) (func : Nibble) (imm : BitVec 8)
  | lbs (rde rs1 rs2 : RegId) (func : Nibble) (imm : BitVec 8)
  | sw (rde rs1 rs2 : RegId) (func : Nibble) (imm : BitVec 8)
  | sh (rde rs1 rs2 : RegId) (func : Nibble) (imm : BitVec 8)
  | sq (rde rs1 rs2 : RegId) (func : Nibble) (imm : BitVec 8)
  | sb (rde rs1 rs2 : RegId) (func : Nibble) (imm : BitVec 8)
  -- Compare (R340 to R342)
  | cmpr (rde rs1 : RegId)
  | cmpi (order : CompareOrder) (rde : RegId) (imm : BitVec 16)
  -- Arithmetic and bitwise (R350 to R382)
  | addr (rde rs1 rs2 : RegId)
  | addi (rde rs1 : RegId) (imm : BitVec 16)
  | subr (rde rs1 rs2 : RegId)
  | subi (rde rs1 : RegId) (imm : BitVec 16)
  | imulr (rde rs1 rs2 : RegId)
  | imuli (rde rs1 : RegId) (imm : BitVec 16)
  | idivr (rde rs1 rs2 : RegId)
  | idivi (rde rs1 : RegId) (imm : BitVec 16)
  | umulr (rde rs1 rs2 : RegId)
  | umuli (rde rs1 : RegId) (imm : BitVec 16)
  | udivr (rde rs1 rs2 : RegId)
  | udivi (rde rs1 : RegId) (imm : BitVec 16)
  | remr (rde rs1 rs2 : RegId)
  | remi (rde rs1 : RegId) (imm : BitVec 16)
  | modr (rde rs1 rs2 : RegId)
  | modi (rde rs1 : RegId) (imm : BitVec 16)
  | andr (rde rs1 rs2 : RegId)
  | andi (rde rs1 : RegId) (imm : BitVec 16)
  | orr (rde rs1 rs2 : RegId)
  | ori (rde rs1 : RegId) (imm : BitVec 16)
  | norr (rde rs1 rs2 : RegId)
  | nori (rde rs1 : RegId) (imm : BitVec 16)
  | xorr (rde rs1 rs2 : RegId)
  | xori (rde rs1 : RegId) (imm : BitVec 16)
  | shlr (rde rs1 rs2 : RegId)
  | shli (rde rs1 : RegId) (imm : BitVec 16)
  | asrr (rde rs1 rs2 : RegId)
  | asri (rde rs1 : RegId) (imm : BitVec 16)
  | lsrr (rde rs1 rs2 : RegId)
  | lsri (rde rs1 : RegId) (imm : BitVec 16)
  | bitr (rde rs1 rs2 : RegId)
  | biti (rde rs1 : RegId) (imm : BitVec 16)
  -- Floating point (R400 to R416)
  | fcmpF16 (rde rs1 : RegId)
  | fcmpF32 (rde rs1 : RegId)
  | fcmpF64 (rde rs1 : RegId)
  | ftoF16 (rde rs1 : RegId)
  | ftoF32 (rde rs1 : RegId)
  | ftoF64 (rde rs1 : RegId)
  | ffromF16 (rde rs1 : RegId)
  | ffromF32 (rde rs1 : RegId)
  | ffromF64 (rde rs1 : RegId)
  | fnegF16 (rde rs1 : RegId)
  | fnegF32 (rde rs1 : RegId)
  | fnegF64 (rde rs1 : RegId)
  | fabsF16 (rde rs1 : RegId)
  | fabsF32 (rde rs1 : RegId)
  | fabsF64 (rde rs1 : RegId)
  | faddF16 (rde rs1 rs2 : RegId)
  | faddF32 (rde rs1 rs2 : RegId)
  | faddF64 (rde rs1 rs2 : RegId)
  | fsubF16 (rde rs1 rs2 : RegId)
  | fsubF32 (rde rs1 rs2 : RegId)
  | fsubF64 (rde rs1 rs2 : RegId)
  | fmulF16 (rde rs1 rs2 : RegId)
  | fmulF32 (rde rs1 rs2 : RegId)
  | fmulF64 (rde rs1 rs2 : RegId)
  | fdivF16 (rde rs1 rs2 : RegId)
  | fdivF32 (rde rs1 rs2 : RegId)
  | fdivF64 (rde rs1 rs2 : RegId)
  | fmaF16 (rde rs1 rs2 : RegId)
  | fmaF32 (rde rs1 rs2 : RegId)
  | fmaF64 (rde rs1 rs2 : RegId)
  | fsqrtF16 (rde rs1 : RegId)
  | fsqrtF32 (rde rs1 : RegId)
  | fsqrtF64 (rde rs1 : RegId)
  | fminF16 (rde rs1 rs2 : RegId)
  | fminF32 (rde rs1 rs2 : RegId)
  | fminF64 (rde rs1 rs2 : RegId)
  | fmaxF16 (rde rs1 rs2 : RegId)
  | fmaxF32 (rde rs1 rs2 : RegId)
  | fmaxF64 (rde rs1 rs2 : RegId)
  | fsatF16 (rde rs1 : RegId)
  | fsatF32 (rde rs1 : RegId)
  | fsatF64 (rde rs1 : RegId)
  | fcnvF16F16 (rde rs1 : RegId)
  | fcnvF16F32 (rde rs1 : RegId)
  | fcnvF16F64 (rde rs1 : RegId)
  | fcnvF32F16 (rde rs1 : RegId)
  | fcnvF32F32 (rde rs1 : RegId)
  | fcnvF32F64 (rde rs1 : RegId)
  | fcnvF64F16 (rde rs1 : RegId)
  | fcnvF64F32 (rde rs1 : RegId)
  | fcnvF64F64 (rde rs1 : RegId)
  | fnanF16 (rde rs1 : RegId)
  | fnanF32 (rde rs1 : RegId)
  | fnanF64 (rde rs1 : RegId)
  deriving DecidableEq, Repr

end Sys2Proof
end

