-- ==== Sys2Proof/WellFormed.lean ====
section
/-! DEFINITION. WellFormed: the two checks of well-formedness the spec has. (1) A bit-slice unit is instantiated with a
legal index only (30_encoding.md R73, R78; 70_reset_and_hazards.md R532). (2) A record over wide numbers fits the fields
of a format (R106(b), R107). An instruction needs no check: its operands are typed at their field widths, so every
term of `Instr` is well formed and encodable (R133, R504). -/
namespace Sys2Proof

/-- (S, INDEX) is legal for C when `INDEX * W(S) < W(C)`, for a kind S that is no wider than C (R73; conflict C1). -/
def sliceLegal (S : SliceKind) (C : Container) (i : Nat) : Bool :=
  decide (S.width ≤ C.width) && decide (i * S.width < C.width)

/-- The fields of format E fit their widths 4, 4, 4, 4, 8 (R91). -/
def WideRec.fitsE (r : WideRec) : Bool :=
  decide (r.rde < 2 ^ 4 ∧ r.rs1 < 2 ^ 4 ∧ r.rs2 < 2 ^ 4 ∧ r.func < 2 ^ 4 ∧ r.imm < 2 ^ 8)

/-- The fields of format R fit their widths 4, 4, 4, 12 (R94). -/
def WideRec.fitsR (r : WideRec) : Bool :=
  decide (r.rde < 2 ^ 4 ∧ r.rs1 < 2 ^ 4 ∧ r.rs2 < 2 ^ 4 ∧ r.imm < 2 ^ 12)

/-- The fields of format M fit their widths 4, 4, 16 (R97). -/
def WideRec.fitsM (r : WideRec) : Bool :=
  decide (r.rde < 2 ^ 4 ∧ r.rs1 < 2 ^ 4 ∧ r.imm < 2 ^ 16)

/-- The fields of format F fit their widths 4, 4, 16 (R100). -/
def WideRec.fitsF (r : WideRec) : Bool :=
  decide (r.rde < 2 ^ 4 ∧ r.func < 2 ^ 4 ∧ r.imm < 2 ^ 16)

/-- The fields of format B fit their widths 4, 20 (R103). -/
def WideRec.fitsB (r : WideRec) : Bool :=
  decide (r.func < 2 ^ 4 ∧ r.imm < 2 ^ 20)

end Sys2Proof
end

