-- ==== Sys2Proof/Machine/Bits.lean ====
section
/-! DEFINITION. The nibble unit, the bit-slice unit, sign extension, the byte views of a word and the identifier
conversions (spec 30_encoding.md R72 to R81; 20_memory.md R50 to R52; 10_state.md R32 to R35). -/
namespace Sys2Proof

/-! ### Nibble unit (R72) -/

/-- `lo(b) = b[3:0]` (R72). -/
def nibbleLo (b : Byte) : Nibble := b.extractLsb' 0 4

/-- `hi(b) = b[7:4]` (R72). -/
def nibbleHi (b : Byte) : Nibble := b.extractLsb' 4 4

/-- `to_lo(n) = zext_8(n)` (R72). -/
def nibbleToLo (n : Nibble) : Byte := n.setWidth 8

/-- `to_hi(n) = n << 4` in 8 bits (R72). -/
def nibbleToHi (n : Nibble) : Byte := n.setWidth 8 <<< 4

/-- `compose(l, h) = (h << 4) | l`: the first argument is the low half (R72; decision D15). -/
def nibbleCompose (l h : Nibble) : Byte := nibbleToHi h ||| nibbleToLo l

/-! ### Bit-slice unit (R73 to R79) -/

/-- `mask_w << lo` in n bits (R9, R75). -/
def fieldMask (n lo w : Nat) : BitVec n := (BitVec.allOnes w).setWidth n <<< lo

/-- The write of R75 at a bit position: clear the w bits from `lo`, then OR in the value. -/
def overwrite {n : Nat} (lo w : Nat) (c : BitVec n) (v : BitVec w) : BitVec n :=
  (c &&& ~~~(fieldMask n lo w)) ||| ((v.setWidth n <<< lo) &&& fieldMask n lo w)

/-- `access_S<i>(c)` (R74). Illegal pairs have no value (R78), but for a bool slice of a nibble at an index of 4 or
more, which reads false (R77; decision D16). -/
def sliceRead (S : SliceKind) (C : Container) (i : Nat) (c : BitVec C.width) : Option (BitVec S.width) :=
  if sliceLegal S C i then some (c.extractLsb' (i * S.width) S.width)
  else if S = .bool ∧ C = .nibble then some 0
  else none

/-- `write_S<i>(c, v)` (R75). Illegal pairs have no value (R78), but for a bool slice of a nibble at an index of 4 or
more, which is a no-op (R77; conflict C5). -/
def sliceWrite (S : SliceKind) (C : Container) (i : Nat) (c : BitVec C.width) (v : BitVec S.width) :
    Option (BitVec C.width) :=
  if sliceLegal S C i then some (overwrite (i * S.width) S.width c v)
  else if S = .bool ∧ C = .nibble then some c
  else none

/-- `write_S<i>` of a model with wide operands: the value is masked to the slice's width first (R75; decision D31). -/
def sliceWriteWide (S : SliceKind) (C : Container) (i : Nat) (c : BitVec C.width) (v : Nat) :
    Option (BitVec C.width) :=
  sliceWrite S C i c (BitVec.ofNat S.width v)

/-- A bool as a 1-bit slice value: `true` is 1 and `false` is 0 (R76). -/
def boolSlice (b : Bool) : BitVec SliceKind.bool.width := if b then 1 else 0

/-- A 1-bit slice value as a bool: 1 is `true` (R74, R76). -/
def sliceBool (b : BitVec SliceKind.bool.width) : Bool := b == 1

/-! ### Sign extension (R80) -/

/-- `sext_n(v)` for n in 1..64: left by 64 - n, then arithmetic right by the same amount (R80). -/
def sext (n : Nat) (v : Word) : Word := (v <<< (64 - n)).sshiftRight (64 - n)

/-! ### Byte views of the instruction word (R50 to R52) -/

/-- `word = b3, b2, b1, b0` from high to low: the little-endian word of four bytes at rising addresses (R50). -/
def wordOfBytes (b0 b1 b2 b3 : Byte) : InstrWord :=
  b0.setWidth 32 ||| b1.setWidth 32 <<< 8 ||| b2.setWidth 32 <<< 16 ||| b3.setWidth 32 <<< 24

/-- Byte k of a word, `word[8k+7:8k]` for k = 0..3 (R50, R52). -/
def byteOfWord (k : Nat) (w : InstrWord) : Byte := w.extractLsb' (8 * k) 8

/-- The 16-bit little-endian read at byte offset 0 or 2 of a word (R52): `word[15:0]` or `word[31:16]`. -/
def halfOfWord (upper : Bool) (w : InstrWord) : BitVec 16 := w.extractLsb' (if upper then 16 else 0) 16

/-- The order of instruction words: that of their unsigned values (R32; decision D30). -/
def instrWordLe (a b : InstrWord) : Bool := decide (a.toNat ≤ b.toNat)

/-! ### Identifier conversions (R33 to R35) -/

/-- Register identifier n is encoded as nibble n (R33). -/
def regIdToNibble (r : RegId) : Nibble := r

/-- The register identifier a nibble encodes (R33). -/
def regIdOfNibble (n : Nibble) : RegId := n

/-- The 16-bit field of an interrupt identifier, `zext_16(id)` (R34). -/
def intIdToField (id : IntId) : BitVec 16 := id.setWidth 16

/-- The interrupt identifier of a 16-bit field, absent unless the high byte is zero (R34, R118). -/
def intIdOfField (f : BitVec 16) : Option IntId :=
  if f.extractLsb' 8 8 = 0 then some (f.extractLsb' 0 8) else none

/-- The 16-bit field of a port identifier: the identity (R35). -/
def portToField (p : Port) : BitVec 16 := p

/-- The port identifier of a 16-bit field: the identity (R35). -/
def portOfField (f : BitVec 16) : Port := f

end Sys2Proof
end

