-- ==== Sys2Proof/Machine/Formats.lean ====
section
/-! DEFINITION. The five format units E, R, M, F, B: records, unpack, pack, pack of wide records, and the extended
immediates (spec 30_encoding.md R90 to R109). A record never holds the opcode (R38, R90). -/
namespace Sys2Proof

/-- The opcode of a word, `word[7:0]` (R70). -/
def opcodeOf (w : InstrWord) : BitVec 8 := w.extractLsb' 0 8

/-- Format E: widths 8, 4, 4, 4, 4 from bit 8 up (R91). -/
structure RecE where
  rde : Nibble := 0
  rs1 : Nibble := 0
  rs2 : Nibble := 0
  func : Nibble := 0
  imm : BitVec 8 := 0
  deriving DecidableEq, Repr

/-- Format R: widths 12, 4, 4, 4 from bit 8 up (R94). -/
structure RecR where
  rde : Nibble := 0
  rs1 : Nibble := 0
  rs2 : Nibble := 0
  imm : BitVec 12 := 0
  deriving DecidableEq, Repr

/-- Format M: widths 16, 4, 4 from bit 8 up (R97). -/
structure RecM where
  rde : Nibble := 0
  rs1 : Nibble := 0
  imm : BitVec 16 := 0
  deriving DecidableEq, Repr

/-- Format F: widths 16, 4, 4 from bit 8 up (R100). -/
structure RecF where
  rde : Nibble := 0
  func : Nibble := 0
  imm : BitVec 16 := 0
  deriving DecidableEq, Repr

/-- Format B: widths 20, 4 from bit 8 up (R103). -/
structure RecB where
  func : Nibble := 0
  imm : BitVec 20 := 0
  deriving DecidableEq, Repr

/-! ### Unpack (R92, R95, R98, R101, R104) -/

/-- `unpack_E` (R92). -/
def unpackE (w : InstrWord) : RecE :=
  { rde := w.extractLsb' 28 4, rs1 := w.extractLsb' 24 4, rs2 := w.extractLsb' 20 4,
    func := w.extractLsb' 16 4, imm := w.extractLsb' 8 8 }

/-- `unpack_R` (R95). -/
def unpackR (w : InstrWord) : RecR :=
  { rde := w.extractLsb' 28 4, rs1 := w.extractLsb' 24 4, rs2 := w.extractLsb' 20 4, imm := w.extractLsb' 8 12 }

/-- `unpack_M` (R98). -/
def unpackM (w : InstrWord) : RecM :=
  { rde := w.extractLsb' 28 4, rs1 := w.extractLsb' 24 4, imm := w.extractLsb' 8 16 }

/-- `unpack_F` (R101). -/
def unpackF (w : InstrWord) : RecF :=
  { rde := w.extractLsb' 28 4, func := w.extractLsb' 24 4, imm := w.extractLsb' 8 16 }

/-- `unpack_B` (R104). -/
def unpackB (w : InstrWord) : RecB :=
  { func := w.extractLsb' 28 4, imm := w.extractLsb' 8 20 }

/-! ### Pack (R93, R96, R99, R102, R105); the fields are typed by width, so the masks are identities (R107) -/

/-- `pack_E` (R93). -/
def packE (r : RecE) (op : BitVec 8) : InstrWord :=
  r.rde.setWidth 32 <<< 28 ||| r.rs1.setWidth 32 <<< 24 ||| r.rs2.setWidth 32 <<< 20
    ||| r.func.setWidth 32 <<< 16 ||| r.imm.setWidth 32 <<< 8 ||| op.setWidth 32

/-- `pack_R` (R96). -/
def packR (r : RecR) (op : BitVec 8) : InstrWord :=
  r.rde.setWidth 32 <<< 28 ||| r.rs1.setWidth 32 <<< 24 ||| r.rs2.setWidth 32 <<< 20
    ||| r.imm.setWidth 32 <<< 8 ||| op.setWidth 32

/-- `pack_M` (R99). -/
def packM (r : RecM) (op : BitVec 8) : InstrWord :=
  r.rde.setWidth 32 <<< 28 ||| r.rs1.setWidth 32 <<< 24 ||| r.imm.setWidth 32 <<< 8 ||| op.setWidth 32

/-- `pack_F` (R102). -/
def packF (r : RecF) (op : BitVec 8) : InstrWord :=
  r.rde.setWidth 32 <<< 28 ||| r.func.setWidth 32 <<< 24 ||| r.imm.setWidth 32 <<< 8 ||| op.setWidth 32

/-- `pack_B` (R105). -/
def packB (r : RecB) (op : BitVec 8) : InstrWord :=
  r.func.setWidth 32 <<< 28 ||| r.imm.setWidth 32 <<< 8 ||| op.setWidth 32

/-! ### Records over wide numbers: each field is masked to its width (R107, decision D31) -/

/-- The record of format E that wide fields mask to (R93, R107). -/
def WideRec.toE (r : WideRec) : RecE :=
  { rde := .ofNat 4 r.rde, rs1 := .ofNat 4 r.rs1, rs2 := .ofNat 4 r.rs2, func := .ofNat 4 r.func, imm := .ofNat 8 r.imm }

/-- The record of format R that wide fields mask to (R96, R107). -/
def WideRec.toR (r : WideRec) : RecR :=
  { rde := .ofNat 4 r.rde, rs1 := .ofNat 4 r.rs1, rs2 := .ofNat 4 r.rs2, imm := .ofNat 12 r.imm }

/-- The record of format M that wide fields mask to (R99, R107). -/
def WideRec.toM (r : WideRec) : RecM :=
  { rde := .ofNat 4 r.rde, rs1 := .ofNat 4 r.rs1, imm := .ofNat 16 r.imm }

/-- The record of format F that wide fields mask to (R102, R107). -/
def WideRec.toF (r : WideRec) : RecF :=
  { rde := .ofNat 4 r.rde, func := .ofNat 4 r.func, imm := .ofNat 16 r.imm }

/-- The record of format B that wide fields mask to (R105, R107). -/
def WideRec.toB (r : WideRec) : RecB :=
  { func := .ofNat 4 r.func, imm := .ofNat 20 r.imm }

/-! ### Extended immediates (R108, R109) -/

/-- `uimm` of a raw immediate of n bits: `zext_64(imm)` (R109). -/
def uimm {n : Nat} (imm : BitVec n) : Word := imm.setWidth 64

/-- `simm` of a raw immediate of n bits: `sext_n(imm)` (R109). -/
def simm {n : Nat} (imm : BitVec n) : Word := sext n (imm.setWidth 64)

/-! ### One record for all five formats -/

/-- The fields of a word under some format: a field the format lacks is 0, the immediate is zero-extended to 20 bits, as
the decoder port outputs them (R142). -/
structure Fields where
  rde : Nibble := 0
  rs1 : Nibble := 0
  rs2 : Nibble := 0
  func : Nibble := 0
  imm : BitVec 20 := 0
  deriving DecidableEq, Repr

/-- `unpack_X` of a word, X the given format (R92, R95, R98, R101, R104). -/
def readFields (fmt : Format) (w : InstrWord) : Fields :=
  match fmt with
  | .e => { rde := (unpackE w).rde, rs1 := (unpackE w).rs1, rs2 := (unpackE w).rs2, func := (unpackE w).func,
            imm := (unpackE w).imm.setWidth 20 }
  | .r => { rde := (unpackR w).rde, rs1 := (unpackR w).rs1, rs2 := (unpackR w).rs2, imm := (unpackR w).imm.setWidth 20 }
  | .m => { rde := (unpackM w).rde, rs1 := (unpackM w).rs1, imm := (unpackM w).imm.setWidth 20 }
  | .f => { rde := (unpackF w).rde, func := (unpackF w).func, imm := (unpackF w).imm.setWidth 20 }
  | .b => { func := (unpackB w).func, imm := (unpackB w).imm }

/-- `pack_X` of the fields that format X has, with an opcode (R93, R96, R99, R102, R105). -/
def packFields (fmt : Format) (f : Fields) (op : BitVec 8) : InstrWord :=
  match fmt with
  | .e => packE { rde := f.rde, rs1 := f.rs1, rs2 := f.rs2, func := f.func, imm := f.imm.setWidth 8 } op
  | .r => packR { rde := f.rde, rs1 := f.rs1, rs2 := f.rs2, imm := f.imm.setWidth 12 } op
  | .m => packM { rde := f.rde, rs1 := f.rs1, imm := f.imm.setWidth 16 } op
  | .f => packF { rde := f.rde, func := f.func, imm := f.imm.setWidth 16 } op
  | .b => packB { func := f.func, imm := f.imm } op

/-- The width of a format's immediate (R108). -/
def Format.immWidth : Format → Nat
  | .e => 8 | .r => 12 | .m => 16 | .f => 16 | .b => 20

/-- All the bits that a format has (R91, R94, R97, R100, R103). -/
def Format.mask : Format → Fields
  | .e => { rde := 0xF, rs1 := 0xF, rs2 := 0xF, func := 0xF, imm := 0xFF }
  | .r => { rde := 0xF, rs1 := 0xF, rs2 := 0xF, imm := 0xFFF }
  | .m => { rde := 0xF, rs1 := 0xF, imm := 0xFFFF }
  | .f => { rde := 0xF, func := 0xF, imm := 0xFFFF }
  | .b => { func := 0xF, imm := 0xFFFFF }

/-- Only the bits that the mask has. -/
def Fields.mask (f m : Fields) : Fields :=
  { rde := f.rde &&& m.rde, rs1 := f.rs1 &&& m.rs1, rs2 := f.rs2 &&& m.rs2, func := f.func &&& m.func,
    imm := f.imm &&& m.imm }

/-- The bits of both. -/
def Fields.union (f g : Fields) : Fields :=
  { rde := f.rde ||| g.rde, rs1 := f.rs1 ||| g.rs1, rs2 := f.rs2 ||| g.rs2, func := f.func ||| g.func,
    imm := f.imm ||| g.imm }

/-- Every bit set in the fields is set in the mask. -/
abbrev Fields.within (f m : Fields) : Prop := f.mask m = f

/-- A 4-bit field of a record. -/
def Fields.nibble (f : Fields) : NibbleField → Nibble
  | .rde => f.rde
  | .rs1 => f.rs1
  | .rs2 => f.rs2
  | .func => f.func

/-- The fields of a word as operands, `roles` naming the field that each operand is read from (R6, R132). -/
def Fields.select (f : Fields) (roles : Equiv.Perm NibbleField) : Fields :=
  { rde := f.nibble (roles .rde), rs1 := f.nibble (roles .rs1), rs2 := f.nibble (roles .rs2),
    func := f.nibble (roles .func), imm := f.imm }

/-- The operands as fields of a word, the inverse of `Fields.select` (R6, R130, R132). -/
def Fields.place (f : Fields) (roles : Equiv.Perm NibbleField) : Fields := f.select roles.symm

/-- The immediate of formats M and F. -/
abbrev Fields.imm16 (f : Fields) : BitVec 16 := f.imm.setWidth 16

/-- The immediate of format E. -/
abbrev Fields.imm8 (f : Fields) : BitVec 8 := f.imm.setWidth 8

end Sys2Proof
end

