-- ==== Sys2Proof/Decode.lean ====
section
/-! DEFINITION. Decode: the parameters of the block, opcode and sub-code tables, the dispatch decoder, and after them
the variant encoder, the opcode table's rows and the decoder port (spec 30_encoding.md R110 to R144; 60_exceptions.md
R500 to R505). Decoding is total on all words and depends on the word alone (R110, R119). `decodeVariant`,
`encodeVariant`, `canonWith`, `isCanonicalWith`, `decodeWith`, `encodeWith` and `decoderPortWith` take the parameters
OPCODE_ASSIGNMENT, SUBCODE_ASSIGNMENT, FCNV_SPLIT and OPERAND_ROLES (R6, R126); `decode`, `encode`, `canon`,
`isCanonical` and `decoderPort` have the spec's default values of them, and so does the machine (DESIGN CHOICE of the
spec, log 2). -/
namespace Sys2Proof

/-! ### Outcome of decoding (R113, R501) -/

/-- The reasons of a decode failure (R501). -/
inductive FailReason
  | badOpcode | badSubcode | badIntHighByte
  deriving DecidableEq, Repr

/-- The code of a reason on the `fail_reason` port; 0 is "none" (R501). -/
def FailReason.code : FailReason → BitVec 2
  | .badOpcode => 1 | .badSubcode => 2 | .badIntHighByte => 3

/-- `SOME(variant)` or `NONE(reason)` (R11, R110). -/
inductive DecodeResult
  | some (i : Instr)
  | none (reason : FailReason)
  deriving DecidableEq, Repr

/-! ### Sub-code tables (R121 to R126) -/

/-- The code of a branch condition (R122). -/
def BranchCond.code : BranchCond → Nibble
  | .always => 0x0
  | .eq => 0x1
  | .ez => 0x2
  | .lt => 0x3
  | .le => 0x4
  | .ltu => 0x5
  | .leu => 0x6
  | .ne => 0x9
  | .nz => 0xA
  | .ge => 0xB
  | .gt => 0xC
  | .geu => 0xD
  | .gtu => 0xE

/-- The branch condition of a func nibble; 7, 8 and F have none (R117, R122). -/
def BranchCond.ofCode? (n : Nibble) : Option BranchCond :=
  match n.toNat with
  | 0x0 => some .always
  | 0x1 => some .eq
  | 0x2 => some .ez
  | 0x3 => some .lt
  | 0x4 => some .le
  | 0x5 => some .ltu
  | 0x6 => some .leu
  | 0x9 => some .ne
  | 0xA => some .nz
  | 0xB => some .ge
  | 0xC => some .gt
  | 0xD => some .geu
  | 0xE => some .gtu
  | _ => none

/-- The code of a load-immediate type (R123). -/
def LiType.code : LiType → Nibble
  | .lli => 0
  | .llis => 1
  | .lui => 2
  | .luis => 3
  | .lti => 4
  | .ltis => 5
  | .ltui => 6
  | .ltuis => 7

/-- The load-immediate type of a func nibble; 8 to F have none (R123). -/
def LiType.ofCode? (n : Nibble) : Option LiType :=
  match n.toNat with
  | 0 => some .lli
  | 1 => some .llis
  | 2 => some .lui
  | 3 => some .luis
  | 4 => some .lti
  | 5 => some .ltis
  | 6 => some .ltui
  | 7 => some .ltuis
  | _ => none

/-- The code of a float precision (R124). -/
def FloatPrec.code : FloatPrec → Nibble
  | .half => 0 | .single => 1 | .double => 2

/-- The float precision of a func nibble; the check is on the whole nibble (R124, decision D10). -/
def FloatPrec.ofCode? (n : Nibble) : Option FloatPrec :=
  match n.toNat with
  | 0 => some .half
  | 1 => some .single
  | 2 => some .double
  | _ => none

/-- The code of a compare order (R125). -/
def CompareOrder.code : CompareOrder → Nibble
  | .registerFirst => 0 | .immediateFirst => 1

/-- The compare order of a func nibble; 2 to F have none (R125). -/
def CompareOrder.ofCode? (n : Nibble) : Option CompareOrder :=
  match n.toNat with
  | 0 => some .registerFirst
  | 1 => some .immediateFirst
  | _ => none

/-- FCNV_SPLIT at the spec's default: from = func[1:0], to = func[3:2]; "from" is checked before "to" (R126, R502). -/
def fcnvSplit (n : Nibble) : Option (FloatPrec × FloatPrec) :=
  match FloatPrec.ofCode? ((n.extractLsb' 0 2).setWidth 4) with
  | none => none
  | some f =>
    match FloatPrec.ofCode? ((n.extractLsb' 2 2).setWidth 4) with
    | none => none
    | some t => some (f, t)

/-- The func nibble of a cast pair, the inverse of FCNV_SPLIT (R126, R130). -/
def fcnvCode (f t : FloatPrec) : Nibble := t.code <<< 2 ||| f.code

/-! ### Families by opcode (R111, R112) -/

/-- The families of R111. -/
inductive Family
  | sysctl | portIo | control | branch | stack | loadImm | loadStore | compare | alu | float
  deriving DecidableEq, Repr

/-- FAMILY(op): the range of R111 an opcode lies in; the 180 unassigned opcodes of R112 have none. -/
def familyOf (op : BitVec 8) : Option Family :=
  let n := op.toNat
  if n = 0x00 then none
  else if n ≤ 0x01 then some .sysctl
  else if n ≤ 0x05 then some .portIo
  else if n ≤ 0x09 then some .control
  else if n ≤ 0x0A then some .branch
  else if n ≤ 0x0E then some .stack
  else if n = 0x0F then none
  else if n ≤ 0x10 then some .loadImm
  else if n ≤ 0x1B then some .loadStore
  else if n ≤ 0x1D then none
  else if n ≤ 0x1F then some .compare
  else if n ≤ 0x3F then some .alu
  else if n ≤ 0x4F then some .float
  else none

/-- The family of what an opcode selects (R111, R120). -/
def OpKind.family : OpKind → Family
  | .sysctl => .sysctl
  | .branch => .branch
  | .loadImm => .loadImm
  | .cmpi => .compare
  | .float _ => .float
  | .fcnv => .float
  | .single m =>
    match m with
    | .outr | .outi | .inr | .ini => .portIo
    | .jal | .jalr | .ret | .retr => .control
    | .push | .pop | .enter | .leave => .stack
    | .lw | .lh | .lhs | .lq | .lqs | .lb | .lbs | .sw | .sh | .sq | .sb => .loadStore
    | .cmpr => .compare
    | .aluReg _ | .aluImm _ => .alu

/-! ### The parameters of the block (R6) and their default values -/

/-- An assignment of func nibbles to the values of a type, read both ways. -/
structure SubcodeTable (α : Type) where
  /-- the value of a nibble; a nibble without one gives BAD_SUBCODE (R113) -/
  ofCode? : Nibble → Option α
  /-- the nibble of a value, for the encoder (R130) -/
  code : α → Nibble

/-- The parameters a model of the block takes (R6). -/
structure BlockParams where
  /-- OPCODE_ASSIGNMENT (R120): what an opcode selects -/
  kindOf : BitVec 8 → Option OpKind
  /-- OPCODE_ASSIGNMENT read the other way, for the encoder (R130) -/
  opcode : OpKind → BitVec 8
  /-- OPCODE_ASSIGNMENT: the formats the source leaves open, those of the stack and the compare family (D6) -/
  openFormat : OpKind → Format
  /-- SUBCODE_ASSIGNMENT of system control (R121) -/
  sysctl : SubcodeTable SysctlOp
  /-- SUBCODE_ASSIGNMENT of the branch conditions (R122) -/
  cond : SubcodeTable BranchCond
  /-- SUBCODE_ASSIGNMENT of the load-immediate types (R123) -/
  liType : SubcodeTable LiType
  /-- SUBCODE_ASSIGNMENT of the float precisions (R124) -/
  prec : SubcodeTable FloatPrec
  /-- SUBCODE_ASSIGNMENT of the compare orders (R125) -/
  order : SubcodeTable CompareOrder
  /-- FCNV_SPLIT (R126): the (from, to) pair of a nibble, and its inverse -/
  fcnv : SubcodeTable (FloatPrec × FloatPrec)
  /-- OPERAND_ROLES (R132, D14): the used fields of each variant, as a mask of the fields of its format -/
  used : Head → Fields
  /-- OPERAND_ROLES, what the used fields mean: the field that each 4-bit operand of an instruction is read from -/
  roles : Head → Equiv.Perm NibbleField

/-- The format of what an opcode selects: the source's format of its range, or the open one (R111, R115, D6). -/
def BlockParams.formatOf (P : BlockParams) (k : OpKind) : Format :=
  match k with
  | .single (.aluReg _) => .r
  | .single (.aluImm _) => .m
  | k =>
    match k.family with
    | .sysctl | .loadImm => .f
    | .portIo | .control => .m
    | .branch => .b
    | .loadStore | .float => .e
    | .stack | .compare | .alu => P.openFormat k

/-- OPCODE_ASSIGNMENT at the spec's default (R120). -/
def defaultKindOf (op : BitVec 8) : Option OpKind :=
  match op.toNat with
  | 0x01 => some .sysctl
  | 0x02 => some (.single .outr)
  | 0x03 => some (.single .outi)
  | 0x04 => some (.single .inr)
  | 0x05 => some (.single .ini)
  | 0x06 => some (.single .jal)
  | 0x07 => some (.single .jalr)
  | 0x08 => some (.single .ret)
  | 0x09 => some (.single .retr)
  | 0x0A => some .branch
  | 0x0B => some (.single .push)
  | 0x0C => some (.single .pop)
  | 0x0D => some (.single .enter)
  | 0x0E => some (.single .leave)
  | 0x10 => some .loadImm
  | 0x11 => some (.single .lw)
  | 0x12 => some (.single .lh)
  | 0x13 => some (.single .lhs)
  | 0x14 => some (.single .lq)
  | 0x15 => some (.single .lqs)
  | 0x16 => some (.single .lb)
  | 0x17 => some (.single .lbs)
  | 0x18 => some (.single .sw)
  | 0x19 => some (.single .sh)
  | 0x1A => some (.single .sq)
  | 0x1B => some (.single .sb)
  | 0x1E => some (.single .cmpr)
  | 0x1F => some .cmpi
  | 0x20 => some (.single (.aluReg .add))
  | 0x21 => some (.single (.aluImm .add))
  | 0x22 => some (.single (.aluReg .sub))
  | 0x23 => some (.single (.aluImm .sub))
  | 0x24 => some (.single (.aluReg .imul))
  | 0x25 => some (.single (.aluImm .imul))
  | 0x26 => some (.single (.aluReg .idiv))
  | 0x27 => some (.single (.aluImm .idiv))
  | 0x28 => some (.single (.aluReg .umul))
  | 0x29 => some (.single (.aluImm .umul))
  | 0x2A => some (.single (.aluReg .udiv))
  | 0x2B => some (.single (.aluImm .udiv))
  | 0x2C => some (.single (.aluReg .rem))
  | 0x2D => some (.single (.aluImm .rem))
  | 0x2E => some (.single (.aluReg .mod))
  | 0x2F => some (.single (.aluImm .mod))
  | 0x30 => some (.single (.aluReg .and))
  | 0x31 => some (.single (.aluImm .and))
  | 0x32 => some (.single (.aluReg .or))
  | 0x33 => some (.single (.aluImm .or))
  | 0x34 => some (.single (.aluReg .nor))
  | 0x35 => some (.single (.aluImm .nor))
  | 0x36 => some (.single (.aluReg .xor))
  | 0x37 => some (.single (.aluImm .xor))
  | 0x38 => some (.single (.aluReg .shl))
  | 0x39 => some (.single (.aluImm .shl))
  | 0x3A => some (.single (.aluReg .asr))
  | 0x3B => some (.single (.aluImm .asr))
  | 0x3C => some (.single (.aluReg .lsr))
  | 0x3D => some (.single (.aluImm .lsr))
  | 0x3E => some (.single (.aluReg .bit))
  | 0x3F => some (.single (.aluImm .bit))
  | 0x40 => some (.float .fcmp)
  | 0x41 => some (.float .fto)
  | 0x42 => some (.float .ffrom)
  | 0x43 => some (.float .fneg)
  | 0x44 => some (.float .fabs)
  | 0x45 => some (.float .fadd)
  | 0x46 => some (.float .fsub)
  | 0x47 => some (.float .fmul)
  | 0x48 => some (.float .fdiv)
  | 0x49 => some (.float .fma)
  | 0x4A => some (.float .fsqrt)
  | 0x4B => some (.float .fmin)
  | 0x4C => some (.float .fmax)
  | 0x4D => some (.float .fsat)
  | 0x4E => some .fcnv
  | 0x4F => some (.float .fnan)
  | _ => none

/-- The opcode of each kind at the spec's default (R120). -/
def OpKind.defaultOpcode : OpKind → BitVec 8
  | .sysctl => 0x01
  | .single .outr => 0x02
  | .single .outi => 0x03
  | .single .inr => 0x04
  | .single .ini => 0x05
  | .single .jal => 0x06
  | .single .jalr => 0x07
  | .single .ret => 0x08
  | .single .retr => 0x09
  | .branch => 0x0A
  | .single .push => 0x0B
  | .single .pop => 0x0C
  | .single .enter => 0x0D
  | .single .leave => 0x0E
  | .loadImm => 0x10
  | .single .lw => 0x11
  | .single .lh => 0x12
  | .single .lhs => 0x13
  | .single .lq => 0x14
  | .single .lqs => 0x15
  | .single .lb => 0x16
  | .single .lbs => 0x17
  | .single .sw => 0x18
  | .single .sh => 0x19
  | .single .sq => 0x1A
  | .single .sb => 0x1B
  | .single .cmpr => 0x1E
  | .cmpi => 0x1F
  | .single (.aluReg .add) => 0x20
  | .single (.aluImm .add) => 0x21
  | .single (.aluReg .sub) => 0x22
  | .single (.aluImm .sub) => 0x23
  | .single (.aluReg .imul) => 0x24
  | .single (.aluImm .imul) => 0x25
  | .single (.aluReg .idiv) => 0x26
  | .single (.aluImm .idiv) => 0x27
  | .single (.aluReg .umul) => 0x28
  | .single (.aluImm .umul) => 0x29
  | .single (.aluReg .udiv) => 0x2A
  | .single (.aluImm .udiv) => 0x2B
  | .single (.aluReg .rem) => 0x2C
  | .single (.aluImm .rem) => 0x2D
  | .single (.aluReg .mod) => 0x2E
  | .single (.aluImm .mod) => 0x2F
  | .single (.aluReg .and) => 0x30
  | .single (.aluImm .and) => 0x31
  | .single (.aluReg .or) => 0x32
  | .single (.aluImm .or) => 0x33
  | .single (.aluReg .nor) => 0x34
  | .single (.aluImm .nor) => 0x35
  | .single (.aluReg .xor) => 0x36
  | .single (.aluImm .xor) => 0x37
  | .single (.aluReg .shl) => 0x38
  | .single (.aluImm .shl) => 0x39
  | .single (.aluReg .asr) => 0x3A
  | .single (.aluImm .asr) => 0x3B
  | .single (.aluReg .lsr) => 0x3C
  | .single (.aluImm .lsr) => 0x3D
  | .single (.aluReg .bit) => 0x3E
  | .single (.aluImm .bit) => 0x3F
  | .float .fcmp => 0x40
  | .float .fto => 0x41
  | .float .ffrom => 0x42
  | .float .fneg => 0x43
  | .float .fabs => 0x44
  | .float .fadd => 0x45
  | .float .fsub => 0x46
  | .float .fmul => 0x47
  | .float .fdiv => 0x48
  | .float .fma => 0x49
  | .float .fsqrt => 0x4A
  | .float .fmin => 0x4B
  | .float .fmax => 0x4C
  | .float .fsat => 0x4D
  | .fcnv => 0x4E
  | .float .fnan => 0x4F

/-- The open formats at the spec's default (R120, D6): format M but for `enter`, `leave` (B) and `cmpi` (F). -/
def OpKind.defaultFormat : OpKind → Format
  | .single .enter | .single .leave => .b
  | .cmpi => .f
  | _ => .m

/-- The code of a system-control operation (R121). -/
def SysctlOp.code : SysctlOp → Nibble
  | .int => 0 | .iret => 1 | .ires => 2 | .usr => 3

/-- The system-control operation of a func nibble; 4 to F have none (R121). -/
def SysctlOp.ofCode? (n : Nibble) : Option SysctlOp :=
  match n.toNat with
  | 0 => some .int
  | 1 => some .iret
  | 2 => some .ires
  | 3 => some .usr
  | _ => none

/-- The used fields of each variant at the spec's default: those its rule of 40 to 47 lists (R132, D14). -/
def Head.defaultUsed : Head → Fields
  | .sysctl .int => { imm := 0xFF }
  | .sysctl .iret | .sysctl .ires => {}
  | .sysctl .usr => { rde := 0xF }
  | .branch _ => { imm := 0xFFFFF }
  | .loadImm _ | .cmpi _ => { rde := 0xF, imm := 0xFFFF }
  | .float op _ =>
    match op with
    | .fadd | .fsub | .fmul | .fdiv | .fma | .fmin | .fmax => { rde := 0xF, rs1 := 0xF, rs2 := 0xF }
    | _ => { rde := 0xF, rs1 := 0xF }
  | .fcnv _ _ => { rde := 0xF, rs1 := 0xF }
  | .single m =>
    match m with
    | .outr | .inr | .cmpr => { rde := 0xF, rs1 := 0xF }
    | .outi | .jal => { rs1 := 0xF, imm := 0xFFFF }
    | .ini => { rde := 0xF, imm := 0xFFFF }
    | .jalr | .aluImm _ => { rde := 0xF, rs1 := 0xF, imm := 0xFFFF }
    | .ret | .enter | .leave => {}
    | .retr | .push => { rs1 := 0xF }
    | .pop => { rde := 0xF }
    | .lw | .lh | .lhs | .lq | .lqs | .lb | .lbs | .sw | .sh | .sq | .sb =>
      { rde := 0xF, rs1 := 0xF, rs2 := 0xF, func := 0xF, imm := 0xFF }
    | .aluReg _ => { rde := 0xF, rs1 := 0xF, rs2 := 0xF }

/-- The default value of each parameter (R6): the tables of R120 to R126, the used fields of 40 to 47 (D14), and each
operand in the field of its name. -/
def defaultParams : BlockParams where
  kindOf := defaultKindOf
  opcode := OpKind.defaultOpcode
  openFormat := OpKind.defaultFormat
  sysctl := ⟨SysctlOp.ofCode?, SysctlOp.code⟩
  cond := ⟨BranchCond.ofCode?, BranchCond.code⟩
  liType := ⟨LiType.ofCode?, LiType.code⟩
  prec := ⟨FloatPrec.ofCode?, FloatPrec.code⟩
  order := ⟨CompareOrder.ofCode?, CompareOrder.code⟩
  fcnv := ⟨fcnvSplit, fun p => fcnvCode p.1 p.2⟩
  used := Head.defaultUsed
  roles := fun _ => Equiv.refl _

/-! ### Variants (R39) -/

/-- A variant: what it is, and its used fields, every other field 0 (R39, R132). -/
structure Variant where
  head : Head
  operands : Fields
  deriving DecidableEq, Repr

/-- An instruction from what it is and its operands. -/
def Head.toInstr (h : Head) (o : Fields) : Instr :=
  match h with
  | .sysctl .int => .int o.imm8
  | .sysctl .iret => .iret
  | .sysctl .ires => .ires
  | .sysctl .usr => .usr o.rde
  | .single .outr => .outr o.rde o.rs1
  | .single .outi => .outi o.rs1 (portOfField o.imm16)
  | .single .inr => .inr o.rde o.rs1
  | .single .ini => .ini o.rde (portOfField o.imm16)
  | .single .jal => .jal o.rs1 o.imm16
  | .single .jalr => .jalr o.rde o.rs1 o.imm16
  | .single .ret => .ret
  | .single .retr => .retr o.rs1
  | .branch .always => .bra o.imm
  | .branch .eq => .beq o.imm
  | .branch .ez => .bez o.imm
  | .branch .lt => .blt o.imm
  | .branch .le => .ble o.imm
  | .branch .ltu => .bltu o.imm
  | .branch .leu => .bleu o.imm
  | .branch .ne => .bne o.imm
  | .branch .nz => .bnz o.imm
  | .branch .ge => .bge o.imm
  | .branch .gt => .bgt o.imm
  | .branch .geu => .bgeu o.imm
  | .branch .gtu => .bgtu o.imm
  | .single .push => .push o.rs1
  | .single .pop => .pop o.rde
  | .single .enter => .enter
  | .single .leave => .leave
  | .loadImm .lli => .lli o.rde o.imm16
  | .loadImm .llis => .llis o.rde o.imm16
  | .loadImm .lui => .lui o.rde o.imm16
  | .loadImm .luis => .luis o.rde o.imm16
  | .loadImm .lti => .lti o.rde o.imm16
  | .loadImm .ltis => .ltis o.rde o.imm16
  | .loadImm .ltui => .ltui o.rde o.imm16
  | .loadImm .ltuis => .ltuis o.rde o.imm16
  | .single .lw => .lw o.rde o.rs1 o.rs2 o.func o.imm8
  | .single .lh => .lh o.rde o.rs1 o.rs2 o.func o.imm8
  | .single .lhs => .lhs o.rde o.rs1 o.rs2 o.func o.imm8
  | .single .lq => .lq o.rde o.rs1 o.rs2 o.func o.imm8
  | .single .lqs => .lqs o.rde o.rs1 o.rs2 o.func o.imm8
  | .single .lb => .lb o.rde o.rs1 o.rs2 o.func o.imm8
  | .single .lbs => .lbs o.rde o.rs1 o.rs2 o.func o.imm8
  | .single .sw => .sw o.rde o.rs1 o.rs2 o.func o.imm8
  | .single .sh => .sh o.rde o.rs1 o.rs2 o.func o.imm8
  | .single .sq => .sq o.rde o.rs1 o.rs2 o.func o.imm8
  | .single .sb => .sb o.rde o.rs1 o.rs2 o.func o.imm8
  | .single .cmpr => .cmpr o.rde o.rs1
  | .cmpi order => .cmpi order o.rde o.imm16
  | .single (.aluReg .add) => .addr o.rde o.rs1 o.rs2
  | .single (.aluImm .add) => .addi o.rde o.rs1 o.imm16
  | .single (.aluReg .sub) => .subr o.rde o.rs1 o.rs2
  | .single (.aluImm .sub) => .subi o.rde o.rs1 o.imm16
  | .single (.aluReg .imul) => .imulr o.rde o.rs1 o.rs2
  | .single (.aluImm .imul) => .imuli o.rde o.rs1 o.imm16
  | .single (.aluReg .idiv) => .idivr o.rde o.rs1 o.rs2
  | .single (.aluImm .idiv) => .idivi o.rde o.rs1 o.imm16
  | .single (.aluReg .umul) => .umulr o.rde o.rs1 o.rs2
  | .single (.aluImm .umul) => .umuli o.rde o.rs1 o.imm16
  | .single (.aluReg .udiv) => .udivr o.rde o.rs1 o.rs2
  | .single (.aluImm .udiv) => .udivi o.rde o.rs1 o.imm16
  | .single (.aluReg .rem) => .remr o.rde o.rs1 o.rs2
  | .single (.aluImm .rem) => .remi o.rde o.rs1 o.imm16
  | .single (.aluReg .mod) => .modr o.rde o.rs1 o.rs2
  | .single (.aluImm .mod) => .modi o.rde o.rs1 o.imm16
  | .single (.aluReg .and) => .andr o.rde o.rs1 o.rs2
  | .single (.aluImm .and) => .andi o.rde o.rs1 o.imm16
  | .single (.aluReg .or) => .orr o.rde o.rs1 o.rs2
  | .single (.aluImm .or) => .ori o.rde o.rs1 o.imm16
  | .single (.aluReg .nor) => .norr o.rde o.rs1 o.rs2
  | .single (.aluImm .nor) => .nori o.rde o.rs1 o.imm16
  | .single (.aluReg .xor) => .xorr o.rde o.rs1 o.rs2
  | .single (.aluImm .xor) => .xori o.rde o.rs1 o.imm16
  | .single (.aluReg .shl) => .shlr o.rde o.rs1 o.rs2
  | .single (.aluImm .shl) => .shli o.rde o.rs1 o.imm16
  | .single (.aluReg .asr) => .asrr o.rde o.rs1 o.rs2
  | .single (.aluImm .asr) => .asri o.rde o.rs1 o.imm16
  | .single (.aluReg .lsr) => .lsrr o.rde o.rs1 o.rs2
  | .single (.aluImm .lsr) => .lsri o.rde o.rs1 o.imm16
  | .single (.aluReg .bit) => .bitr o.rde o.rs1 o.rs2
  | .single (.aluImm .bit) => .biti o.rde o.rs1 o.imm16
  | .float .fcmp .half => .fcmpF16 o.rde o.rs1
  | .float .fcmp .single => .fcmpF32 o.rde o.rs1
  | .float .fcmp .double => .fcmpF64 o.rde o.rs1
  | .float .fto .half => .ftoF16 o.rde o.rs1
  | .float .fto .single => .ftoF32 o.rde o.rs1
  | .float .fto .double => .ftoF64 o.rde o.rs1
  | .float .ffrom .half => .ffromF16 o.rde o.rs1
  | .float .ffrom .single => .ffromF32 o.rde o.rs1
  | .float .ffrom .double => .ffromF64 o.rde o.rs1
  | .float .fneg .half => .fnegF16 o.rde o.rs1
  | .float .fneg .single => .fnegF32 o.rde o.rs1
  | .float .fneg .double => .fnegF64 o.rde o.rs1
  | .float .fabs .half => .fabsF16 o.rde o.rs1
  | .float .fabs .single => .fabsF32 o.rde o.rs1
  | .float .fabs .double => .fabsF64 o.rde o.rs1
  | .float .fadd .half => .faddF16 o.rde o.rs1 o.rs2
  | .float .fadd .single => .faddF32 o.rde o.rs1 o.rs2
  | .float .fadd .double => .faddF64 o.rde o.rs1 o.rs2
  | .float .fsub .half => .fsubF16 o.rde o.rs1 o.rs2
  | .float .fsub .single => .fsubF32 o.rde o.rs1 o.rs2
  | .float .fsub .double => .fsubF64 o.rde o.rs1 o.rs2
  | .float .fmul .half => .fmulF16 o.rde o.rs1 o.rs2
  | .float .fmul .single => .fmulF32 o.rde o.rs1 o.rs2
  | .float .fmul .double => .fmulF64 o.rde o.rs1 o.rs2
  | .float .fdiv .half => .fdivF16 o.rde o.rs1 o.rs2
  | .float .fdiv .single => .fdivF32 o.rde o.rs1 o.rs2
  | .float .fdiv .double => .fdivF64 o.rde o.rs1 o.rs2
  | .float .fma .half => .fmaF16 o.rde o.rs1 o.rs2
  | .float .fma .single => .fmaF32 o.rde o.rs1 o.rs2
  | .float .fma .double => .fmaF64 o.rde o.rs1 o.rs2
  | .float .fsqrt .half => .fsqrtF16 o.rde o.rs1
  | .float .fsqrt .single => .fsqrtF32 o.rde o.rs1
  | .float .fsqrt .double => .fsqrtF64 o.rde o.rs1
  | .float .fmin .half => .fminF16 o.rde o.rs1 o.rs2
  | .float .fmin .single => .fminF32 o.rde o.rs1 o.rs2
  | .float .fmin .double => .fminF64 o.rde o.rs1 o.rs2
  | .float .fmax .half => .fmaxF16 o.rde o.rs1 o.rs2
  | .float .fmax .single => .fmaxF32 o.rde o.rs1 o.rs2
  | .float .fmax .double => .fmaxF64 o.rde o.rs1 o.rs2
  | .float .fsat .half => .fsatF16 o.rde o.rs1
  | .float .fsat .single => .fsatF32 o.rde o.rs1
  | .float .fsat .double => .fsatF64 o.rde o.rs1
  | .fcnv .half .half => .fcnvF16F16 o.rde o.rs1
  | .fcnv .half .single => .fcnvF16F32 o.rde o.rs1
  | .fcnv .half .double => .fcnvF16F64 o.rde o.rs1
  | .fcnv .single .half => .fcnvF32F16 o.rde o.rs1
  | .fcnv .single .single => .fcnvF32F32 o.rde o.rs1
  | .fcnv .single .double => .fcnvF32F64 o.rde o.rs1
  | .fcnv .double .half => .fcnvF64F16 o.rde o.rs1
  | .fcnv .double .single => .fcnvF64F32 o.rde o.rs1
  | .fcnv .double .double => .fcnvF64F64 o.rde o.rs1
  | .float .fnan .half => .fnanF16 o.rde o.rs1
  | .float .fnan .single => .fnanF32 o.rde o.rs1
  | .float .fnan .double => .fnanF64 o.rde o.rs1

/-- What an instruction is, apart from its operands. -/
def Instr.head : Instr → Head
  | .int _ => .sysctl .int
  | .iret => .sysctl .iret
  | .ires => .sysctl .ires
  | .usr _ => .sysctl .usr
  | .outr _ _ => .single .outr
  | .outi _ _ => .single .outi
  | .inr _ _ => .single .inr
  | .ini _ _ => .single .ini
  | .jal _ _ => .single .jal
  | .jalr _ _ _ => .single .jalr
  | .ret => .single .ret
  | .retr _ => .single .retr
  | .bra _ => .branch .always
  | .beq _ => .branch .eq
  | .bez _ => .branch .ez
  | .blt _ => .branch .lt
  | .ble _ => .branch .le
  | .bltu _ => .branch .ltu
  | .bleu _ => .branch .leu
  | .bne _ => .branch .ne
  | .bnz _ => .branch .nz
  | .bge _ => .branch .ge
  | .bgt _ => .branch .gt
  | .bgeu _ => .branch .geu
  | .bgtu _ => .branch .gtu
  | .push _ => .single .push
  | .pop _ => .single .pop
  | .enter => .single .enter
  | .leave => .single .leave
  | .lli _ _ => .loadImm .lli
  | .llis _ _ => .loadImm .llis
  | .lui _ _ => .loadImm .lui
  | .luis _ _ => .loadImm .luis
  | .lti _ _ => .loadImm .lti
  | .ltis _ _ => .loadImm .ltis
  | .ltui _ _ => .loadImm .ltui
  | .ltuis _ _ => .loadImm .ltuis
  | .lw _ _ _ _ _ => .single .lw
  | .lh _ _ _ _ _ => .single .lh
  | .lhs _ _ _ _ _ => .single .lhs
  | .lq _ _ _ _ _ => .single .lq
  | .lqs _ _ _ _ _ => .single .lqs
  | .lb _ _ _ _ _ => .single .lb
  | .lbs _ _ _ _ _ => .single .lbs
  | .sw _ _ _ _ _ => .single .sw
  | .sh _ _ _ _ _ => .single .sh
  | .sq _ _ _ _ _ => .single .sq
  | .sb _ _ _ _ _ => .single .sb
  | .cmpr _ _ => .single .cmpr
  | .cmpi order _ _ => .cmpi order
  | .addr _ _ _ => .single (.aluReg .add)
  | .addi _ _ _ => .single (.aluImm .add)
  | .subr _ _ _ => .single (.aluReg .sub)
  | .subi _ _ _ => .single (.aluImm .sub)
  | .imulr _ _ _ => .single (.aluReg .imul)
  | .imuli _ _ _ => .single (.aluImm .imul)
  | .idivr _ _ _ => .single (.aluReg .idiv)
  | .idivi _ _ _ => .single (.aluImm .idiv)
  | .umulr _ _ _ => .single (.aluReg .umul)
  | .umuli _ _ _ => .single (.aluImm .umul)
  | .udivr _ _ _ => .single (.aluReg .udiv)
  | .udivi _ _ _ => .single (.aluImm .udiv)
  | .remr _ _ _ => .single (.aluReg .rem)
  | .remi _ _ _ => .single (.aluImm .rem)
  | .modr _ _ _ => .single (.aluReg .mod)
  | .modi _ _ _ => .single (.aluImm .mod)
  | .andr _ _ _ => .single (.aluReg .and)
  | .andi _ _ _ => .single (.aluImm .and)
  | .orr _ _ _ => .single (.aluReg .or)
  | .ori _ _ _ => .single (.aluImm .or)
  | .norr _ _ _ => .single (.aluReg .nor)
  | .nori _ _ _ => .single (.aluImm .nor)
  | .xorr _ _ _ => .single (.aluReg .xor)
  | .xori _ _ _ => .single (.aluImm .xor)
  | .shlr _ _ _ => .single (.aluReg .shl)
  | .shli _ _ _ => .single (.aluImm .shl)
  | .asrr _ _ _ => .single (.aluReg .asr)
  | .asri _ _ _ => .single (.aluImm .asr)
  | .lsrr _ _ _ => .single (.aluReg .lsr)
  | .lsri _ _ _ => .single (.aluImm .lsr)
  | .bitr _ _ _ => .single (.aluReg .bit)
  | .biti _ _ _ => .single (.aluImm .bit)
  | .fcmpF16 _ _ => .float .fcmp .half
  | .fcmpF32 _ _ => .float .fcmp .single
  | .fcmpF64 _ _ => .float .fcmp .double
  | .ftoF16 _ _ => .float .fto .half
  | .ftoF32 _ _ => .float .fto .single
  | .ftoF64 _ _ => .float .fto .double
  | .ffromF16 _ _ => .float .ffrom .half
  | .ffromF32 _ _ => .float .ffrom .single
  | .ffromF64 _ _ => .float .ffrom .double
  | .fnegF16 _ _ => .float .fneg .half
  | .fnegF32 _ _ => .float .fneg .single
  | .fnegF64 _ _ => .float .fneg .double
  | .fabsF16 _ _ => .float .fabs .half
  | .fabsF32 _ _ => .float .fabs .single
  | .fabsF64 _ _ => .float .fabs .double
  | .faddF16 _ _ _ => .float .fadd .half
  | .faddF32 _ _ _ => .float .fadd .single
  | .faddF64 _ _ _ => .float .fadd .double
  | .fsubF16 _ _ _ => .float .fsub .half
  | .fsubF32 _ _ _ => .float .fsub .single
  | .fsubF64 _ _ _ => .float .fsub .double
  | .fmulF16 _ _ _ => .float .fmul .half
  | .fmulF32 _ _ _ => .float .fmul .single
  | .fmulF64 _ _ _ => .float .fmul .double
  | .fdivF16 _ _ _ => .float .fdiv .half
  | .fdivF32 _ _ _ => .float .fdiv .single
  | .fdivF64 _ _ _ => .float .fdiv .double
  | .fmaF16 _ _ _ => .float .fma .half
  | .fmaF32 _ _ _ => .float .fma .single
  | .fmaF64 _ _ _ => .float .fma .double
  | .fsqrtF16 _ _ => .float .fsqrt .half
  | .fsqrtF32 _ _ => .float .fsqrt .single
  | .fsqrtF64 _ _ => .float .fsqrt .double
  | .fminF16 _ _ _ => .float .fmin .half
  | .fminF32 _ _ _ => .float .fmin .single
  | .fminF64 _ _ _ => .float .fmin .double
  | .fmaxF16 _ _ _ => .float .fmax .half
  | .fmaxF32 _ _ _ => .float .fmax .single
  | .fmaxF64 _ _ _ => .float .fmax .double
  | .fsatF16 _ _ => .float .fsat .half
  | .fsatF32 _ _ => .float .fsat .single
  | .fsatF64 _ _ => .float .fsat .double
  | .fcnvF16F16 _ _ => .fcnv .half .half
  | .fcnvF16F32 _ _ => .fcnv .half .single
  | .fcnvF16F64 _ _ => .fcnv .half .double
  | .fcnvF32F16 _ _ => .fcnv .single .half
  | .fcnvF32F32 _ _ => .fcnv .single .single
  | .fcnvF32F64 _ _ => .fcnv .single .double
  | .fcnvF64F16 _ _ => .fcnv .double .half
  | .fcnvF64F32 _ _ => .fcnv .double .single
  | .fcnvF64F64 _ _ => .fcnv .double .double
  | .fnanF16 _ _ => .float .fnan .half
  | .fnanF32 _ _ => .float .fnan .single
  | .fnanF64 _ _ => .float .fnan .double

/-- The operands of an instruction, as fields under their names. -/
def Instr.operands : Instr → Fields
  | .int intr => { imm := (intIdToField intr).setWidth 20 }
  | .iret => {}
  | .ires => {}
  | .usr rde => { rde := rde }
  | .outr rde rs1 => { rde := rde, rs1 := rs1 }
  | .outi rs1 imm => { rs1 := rs1, imm := (portToField imm).setWidth 20 }
  | .inr rde rs1 => { rde := rde, rs1 := rs1 }
  | .ini rde imm => { rde := rde, imm := (portToField imm).setWidth 20 }
  | .jal rs1 imm => { rs1 := rs1, imm := imm.setWidth 20 }
  | .jalr rde rs1 imm => { rde := rde, rs1 := rs1, imm := imm.setWidth 20 }
  | .ret => {}
  | .retr rs1 => { rs1 := rs1 }
  | .bra imm => { imm := imm }
  | .beq imm => { imm := imm }
  | .bez imm => { imm := imm }
  | .blt imm => { imm := imm }
  | .ble imm => { imm := imm }
  | .bltu imm => { imm := imm }
  | .bleu imm => { imm := imm }
  | .bne imm => { imm := imm }
  | .bnz imm => { imm := imm }
  | .bge imm => { imm := imm }
  | .bgt imm => { imm := imm }
  | .bgeu imm => { imm := imm }
  | .bgtu imm => { imm := imm }
  | .push rs1 => { rs1 := rs1 }
  | .pop rde => { rde := rde }
  | .enter => {}
  | .leave => {}
  | .lli rde imm => { rde := rde, imm := imm.setWidth 20 }
  | .llis rde imm => { rde := rde, imm := imm.setWidth 20 }
  | .lui rde imm => { rde := rde, imm := imm.setWidth 20 }
  | .luis rde imm => { rde := rde, imm := imm.setWidth 20 }
  | .lti rde imm => { rde := rde, imm := imm.setWidth 20 }
  | .ltis rde imm => { rde := rde, imm := imm.setWidth 20 }
  | .ltui rde imm => { rde := rde, imm := imm.setWidth 20 }
  | .ltuis rde imm => { rde := rde, imm := imm.setWidth 20 }
  | .lw rde rs1 rs2 func imm => { rde := rde, rs1 := rs1, rs2 := rs2, func := func, imm := imm.setWidth 20 }
  | .lh rde rs1 rs2 func imm => { rde := rde, rs1 := rs1, rs2 := rs2, func := func, imm := imm.setWidth 20 }
  | .lhs rde rs1 rs2 func imm => { rde := rde, rs1 := rs1, rs2 := rs2, func := func, imm := imm.setWidth 20 }
  | .lq rde rs1 rs2 func imm => { rde := rde, rs1 := rs1, rs2 := rs2, func := func, imm := imm.setWidth 20 }
  | .lqs rde rs1 rs2 func imm => { rde := rde, rs1 := rs1, rs2 := rs2, func := func, imm := imm.setWidth 20 }
  | .lb rde rs1 rs2 func imm => { rde := rde, rs1 := rs1, rs2 := rs2, func := func, imm := imm.setWidth 20 }
  | .lbs rde rs1 rs2 func imm => { rde := rde, rs1 := rs1, rs2 := rs2, func := func, imm := imm.setWidth 20 }
  | .sw rde rs1 rs2 func imm => { rde := rde, rs1 := rs1, rs2 := rs2, func := func, imm := imm.setWidth 20 }
  | .sh rde rs1 rs2 func imm => { rde := rde, rs1 := rs1, rs2 := rs2, func := func, imm := imm.setWidth 20 }
  | .sq rde rs1 rs2 func imm => { rde := rde, rs1 := rs1, rs2 := rs2, func := func, imm := imm.setWidth 20 }
  | .sb rde rs1 rs2 func imm => { rde := rde, rs1 := rs1, rs2 := rs2, func := func, imm := imm.setWidth 20 }
  | .cmpr rde rs1 => { rde := rde, rs1 := rs1 }
  | .cmpi _ rde imm => { rde := rde, imm := imm.setWidth 20 }
  | .addr rde rs1 rs2 => { rde := rde, rs1 := rs1, rs2 := rs2 }
  | .addi rde rs1 imm => { rde := rde, rs1 := rs1, imm := imm.setWidth 20 }
  | .subr rde rs1 rs2 => { rde := rde, rs1 := rs1, rs2 := rs2 }
  | .subi rde rs1 imm => { rde := rde, rs1 := rs1, imm := imm.setWidth 20 }
  | .imulr rde rs1 rs2 => { rde := rde, rs1 := rs1, rs2 := rs2 }
  | .imuli rde rs1 imm => { rde := rde, rs1 := rs1, imm := imm.setWidth 20 }
  | .idivr rde rs1 rs2 => { rde := rde, rs1 := rs1, rs2 := rs2 }
  | .idivi rde rs1 imm => { rde := rde, rs1 := rs1, imm := imm.setWidth 20 }
  | .umulr rde rs1 rs2 => { rde := rde, rs1 := rs1, rs2 := rs2 }
  | .umuli rde rs1 imm => { rde := rde, rs1 := rs1, imm := imm.setWidth 20 }
  | .udivr rde rs1 rs2 => { rde := rde, rs1 := rs1, rs2 := rs2 }
  | .udivi rde rs1 imm => { rde := rde, rs1 := rs1, imm := imm.setWidth 20 }
  | .remr rde rs1 rs2 => { rde := rde, rs1 := rs1, rs2 := rs2 }
  | .remi rde rs1 imm => { rde := rde, rs1 := rs1, imm := imm.setWidth 20 }
  | .modr rde rs1 rs2 => { rde := rde, rs1 := rs1, rs2 := rs2 }
  | .modi rde rs1 imm => { rde := rde, rs1 := rs1, imm := imm.setWidth 20 }
  | .andr rde rs1 rs2 => { rde := rde, rs1 := rs1, rs2 := rs2 }
  | .andi rde rs1 imm => { rde := rde, rs1 := rs1, imm := imm.setWidth 20 }
  | .orr rde rs1 rs2 => { rde := rde, rs1 := rs1, rs2 := rs2 }
  | .ori rde rs1 imm => { rde := rde, rs1 := rs1, imm := imm.setWidth 20 }
  | .norr rde rs1 rs2 => { rde := rde, rs1 := rs1, rs2 := rs2 }
  | .nori rde rs1 imm => { rde := rde, rs1 := rs1, imm := imm.setWidth 20 }
  | .xorr rde rs1 rs2 => { rde := rde, rs1 := rs1, rs2 := rs2 }
  | .xori rde rs1 imm => { rde := rde, rs1 := rs1, imm := imm.setWidth 20 }
  | .shlr rde rs1 rs2 => { rde := rde, rs1 := rs1, rs2 := rs2 }
  | .shli rde rs1 imm => { rde := rde, rs1 := rs1, imm := imm.setWidth 20 }
  | .asrr rde rs1 rs2 => { rde := rde, rs1 := rs1, rs2 := rs2 }
  | .asri rde rs1 imm => { rde := rde, rs1 := rs1, imm := imm.setWidth 20 }
  | .lsrr rde rs1 rs2 => { rde := rde, rs1 := rs1, rs2 := rs2 }
  | .lsri rde rs1 imm => { rde := rde, rs1 := rs1, imm := imm.setWidth 20 }
  | .bitr rde rs1 rs2 => { rde := rde, rs1 := rs1, rs2 := rs2 }
  | .biti rde rs1 imm => { rde := rde, rs1 := rs1, imm := imm.setWidth 20 }
  | .fcmpF16 rde rs1 => { rde := rde, rs1 := rs1 }
  | .fcmpF32 rde rs1 => { rde := rde, rs1 := rs1 }
  | .fcmpF64 rde rs1 => { rde := rde, rs1 := rs1 }
  | .ftoF16 rde rs1 => { rde := rde, rs1 := rs1 }
  | .ftoF32 rde rs1 => { rde := rde, rs1 := rs1 }
  | .ftoF64 rde rs1 => { rde := rde, rs1 := rs1 }
  | .ffromF16 rde rs1 => { rde := rde, rs1 := rs1 }
  | .ffromF32 rde rs1 => { rde := rde, rs1 := rs1 }
  | .ffromF64 rde rs1 => { rde := rde, rs1 := rs1 }
  | .fnegF16 rde rs1 => { rde := rde, rs1 := rs1 }
  | .fnegF32 rde rs1 => { rde := rde, rs1 := rs1 }
  | .fnegF64 rde rs1 => { rde := rde, rs1 := rs1 }
  | .fabsF16 rde rs1 => { rde := rde, rs1 := rs1 }
  | .fabsF32 rde rs1 => { rde := rde, rs1 := rs1 }
  | .fabsF64 rde rs1 => { rde := rde, rs1 := rs1 }
  | .faddF16 rde rs1 rs2 => { rde := rde, rs1 := rs1, rs2 := rs2 }
  | .faddF32 rde rs1 rs2 => { rde := rde, rs1 := rs1, rs2 := rs2 }
  | .faddF64 rde rs1 rs2 => { rde := rde, rs1 := rs1, rs2 := rs2 }
  | .fsubF16 rde rs1 rs2 => { rde := rde, rs1 := rs1, rs2 := rs2 }
  | .fsubF32 rde rs1 rs2 => { rde := rde, rs1 := rs1, rs2 := rs2 }
  | .fsubF64 rde rs1 rs2 => { rde := rde, rs1 := rs1, rs2 := rs2 }
  | .fmulF16 rde rs1 rs2 => { rde := rde, rs1 := rs1, rs2 := rs2 }
  | .fmulF32 rde rs1 rs2 => { rde := rde, rs1 := rs1, rs2 := rs2 }
  | .fmulF64 rde rs1 rs2 => { rde := rde, rs1 := rs1, rs2 := rs2 }
  | .fdivF16 rde rs1 rs2 => { rde := rde, rs1 := rs1, rs2 := rs2 }
  | .fdivF32 rde rs1 rs2 => { rde := rde, rs1 := rs1, rs2 := rs2 }
  | .fdivF64 rde rs1 rs2 => { rde := rde, rs1 := rs1, rs2 := rs2 }
  | .fmaF16 rde rs1 rs2 => { rde := rde, rs1 := rs1, rs2 := rs2 }
  | .fmaF32 rde rs1 rs2 => { rde := rde, rs1 := rs1, rs2 := rs2 }
  | .fmaF64 rde rs1 rs2 => { rde := rde, rs1 := rs1, rs2 := rs2 }
  | .fsqrtF16 rde rs1 => { rde := rde, rs1 := rs1 }
  | .fsqrtF32 rde rs1 => { rde := rde, rs1 := rs1 }
  | .fsqrtF64 rde rs1 => { rde := rde, rs1 := rs1 }
  | .fminF16 rde rs1 rs2 => { rde := rde, rs1 := rs1, rs2 := rs2 }
  | .fminF32 rde rs1 rs2 => { rde := rde, rs1 := rs1, rs2 := rs2 }
  | .fminF64 rde rs1 rs2 => { rde := rde, rs1 := rs1, rs2 := rs2 }
  | .fmaxF16 rde rs1 rs2 => { rde := rde, rs1 := rs1, rs2 := rs2 }
  | .fmaxF32 rde rs1 rs2 => { rde := rde, rs1 := rs1, rs2 := rs2 }
  | .fmaxF64 rde rs1 rs2 => { rde := rde, rs1 := rs1, rs2 := rs2 }
  | .fsatF16 rde rs1 => { rde := rde, rs1 := rs1 }
  | .fsatF32 rde rs1 => { rde := rde, rs1 := rs1 }
  | .fsatF64 rde rs1 => { rde := rde, rs1 := rs1 }
  | .fcnvF16F16 rde rs1 => { rde := rde, rs1 := rs1 }
  | .fcnvF16F32 rde rs1 => { rde := rde, rs1 := rs1 }
  | .fcnvF16F64 rde rs1 => { rde := rde, rs1 := rs1 }
  | .fcnvF32F16 rde rs1 => { rde := rde, rs1 := rs1 }
  | .fcnvF32F32 rde rs1 => { rde := rde, rs1 := rs1 }
  | .fcnvF32F64 rde rs1 => { rde := rde, rs1 := rs1 }
  | .fcnvF64F16 rde rs1 => { rde := rde, rs1 := rs1 }
  | .fcnvF64F32 rde rs1 => { rde := rde, rs1 := rs1 }
  | .fcnvF64F64 rde rs1 => { rde := rde, rs1 := rs1 }
  | .fnanF16 rde rs1 => { rde := rde, rs1 := rs1 }
  | .fnanF32 rde rs1 => { rde := rde, rs1 := rs1 }
  | .fnanF64 rde rs1 => { rde := rde, rs1 := rs1 }

/-! ### Decode (R110) -/

/-- The sub-code of a kind, from the record of the word: the sub-code first, then `int`'s high byte (R118, R502). -/
def readHead (P : BlockParams) (k : OpKind) (r : Fields) : Except FailReason Head :=
  match k with
  | .single m => .ok (.single m)
  | .sysctl =>
    match P.sysctl.ofCode? r.func with
    | none => .error .badSubcode
    | some .int =>
      match intIdOfField r.imm16 with
      | none => .error .badIntHighByte
      | some _ => .ok (.sysctl .int)
    | some m => .ok (.sysctl m)
  | .branch =>
    match P.cond.ofCode? r.func with
    | none => .error .badSubcode
    | some c => .ok (.branch c)
  | .loadImm =>
    match P.liType.ofCode? r.func with
    | none => .error .badSubcode
    | some t => .ok (.loadImm t)
  | .cmpi =>
    match P.order.ofCode? r.func with
    | none => .error .badSubcode
    | some c => .ok (.cmpi c)
  | .float op =>
    match P.prec.ofCode? r.func with
    | none => .error .badSubcode
    | some p => .ok (.float op p)
  | .fcnv =>
    match P.fcnv.ofCode? r.func with
    | none => .error .badSubcode
    | some (f, t) => .ok (.fcnv f t)

/-- `decode(word)` (R110) under given parameters: the opcode first, then the sub-code (R502); the variant carries the
used fields of the word's record, and no other bit of the word. -/
def decodeVariant (P : BlockParams) (w : InstrWord) : Except FailReason Variant :=
  match P.kindOf (opcodeOf w) with
  | none => .error .badOpcode
  | some k =>
    let r := readFields (P.formatOf k) w
    match readHead P k r with
    | .error e => .error e
    | .ok h => .ok { head := h, operands := r.mask (P.used h) }

/-- The decoded instruction under given parameters: the variant's fields read as operands by their roles. An operand
whose field OPERAND_ROLES leaves out of the used fields reads 0 (the model's choice, log 2). -/
def decodeWith (P : BlockParams) (w : InstrWord) : DecodeResult :=
  match decodeVariant P w with
  | .error r => .none r
  | .ok v => .some (v.head.toInstr (v.operands.select (P.roles v.head)))

/-- `decode(word)` (R110) with the default parameters. -/
def decode (w : InstrWord) : DecodeResult := decodeWith defaultParams w

/-- Decoding of the four bytes of a word at rising addresses; never of fewer (R50, R71, R534). -/
def decodeBytes (b0 b1 b2 b3 : Byte) : DecodeResult := decode (wordOfBytes b0 b1 b2 b3)

/-- What the decoder reads from an instruction whose bits are `w` as spec/opcode_table.json numbers them: the 32-bit
word, whole, with a zero at every bit that the number leaves out (the host's numbering), is laid out in its
little-endian bytes and decoded; more than 32 bits are no instruction (R71). It decodes no part of a word (R534). -/
def decodeTableWord (nbits w : Nat) : Option Instr :=
  if 32 < nbits then none
  else
    let word : InstrWord := BitVec.ofNat 32 (w % 2 ^ nbits)
    match decodeBytes (byteOfWord 0 word) (byteOfWord 1 word) (byteOfWord 2 word) (byteOfWord 3 word) with
    | .some i => some i
    | .none _ => none

/-! ### Encode (R130, R133, R143): total; unused fields are zero -/

/-- The dispatch field of a head: its sub-code in `func` (R130, R132). -/
def Head.dispatch (P : BlockParams) : Head → Fields
  | .single _ => {}
  | .sysctl op => { func := P.sysctl.code op }
  | .branch c => { func := P.cond.code c }
  | .loadImm t => { func := P.liType.code t }
  | .cmpi o => { func := P.order.code o }
  | .float _ p => { func := P.prec.code p }
  | .fcnv f t => { func := P.fcnv.code (f, t) }

/-- `encode(v)` (R130) under given parameters: the used fields and the dispatch field, packed with the opcode. -/
def encodeVariant (P : BlockParams) (v : Variant) : InstrWord :=
  packFields (P.formatOf v.head.kind) ((v.operands.mask (P.used v.head)).union (v.head.dispatch P))
    (P.opcode v.head.kind)

/-- The encoding of an instruction under given parameters: its operands placed in their fields by their roles. -/
def encodeWith (P : BlockParams) (i : Instr) : InstrWord :=
  encodeVariant P { head := i.head, operands := i.operands.place (P.roles i.head) }

/-- `encode(v)` (R130) with the default parameters. -/
def encode (i : Instr) : InstrWord := encodeWith defaultParams i

/-! ### Which parameters are lawful -/

/-- A table of sub-codes that reads the same both ways (R130: FCNV_SPLIT⁻¹ and the codes of R121 to R125). -/
def SubcodeTable.Lawful {α : Type} (T : SubcodeTable α) : Prop :=
  (∀ a, T.ofCode? (T.code a) = some a) ∧ ∀ n a, T.ofCode? n = some a → T.code a = n

/-- The bits of a head's dispatch fields: `func`, and for `int` the high byte of the immediate (R132, R201). -/
def Head.dispatchMask : Head → Fields
  | .single _ => {}
  | .sysctl .int => { func := 0xF, imm := 0xFF00 }
  | _ => { func := 0xF }

/-- Parameters that keep what the source fixes: the ranges of R111 and R112, the parity split of R115, `int` as func 0
(R121), an unassigned condition 7 (R117); whose tables read the same both ways; and whose formats have the used and the
dispatch fields, no bit being both (R132). -/
structure BlockParams.Lawful (P : BlockParams) : Prop where
  kindOf_opcode : ∀ k, P.kindOf (P.opcode k) = some k
  opcode_kindOf : ∀ op k, P.kindOf op = some k → P.opcode k = op
  family : ∀ op, (P.kindOf op).map OpKind.family = familyOf op
  parity : ∀ a, (P.opcode (.single (.aluReg a))).toNat % 2 = 0 ∧
    P.opcode (.single (.aluImm a)) = P.opcode (.single (.aluReg a)) + 1
  sysctl : P.sysctl.Lawful
  intCode : P.sysctl.code .int = 0
  cond : P.cond.Lawful
  condSeven : P.cond.ofCode? 7 = none
  liType : P.liType.Lawful
  prec : P.prec.Lawful
  order : P.order.Lawful
  fcnv : P.fcnv.Lawful
  fields : ∀ h : Head, ((P.used h).union h.dispatchMask).within (P.formatOf h.kind).mask
  disjoint : ∀ h : Head, (P.used h).mask h.dispatchMask = {}

/-- Every operand that an instruction has at the spec's default is read from a used field (R132). -/
def BlockParams.CoversInstr (P : BlockParams) : Prop :=
  ∀ h : Head, (h.defaultUsed.place (P.roles h)).within (P.used h)

/-! ### The opcode table (R134) -/

/-- A row of spec/opcode_table.json: its mnemonic, its mask and match, and the mask of the bits that are not `x` (the
opcode, the dispatch fields and the used fields). -/
structure Row where
  mnemonic : String
  mask : InstrWord
  value : InstrWord
  used : InstrWord
  deriving DecidableEq, Repr

/-- A word matches a row when `(w & mask) = match` (R134). -/
def Row.covers (r : Row) (w : InstrWord) : Bool := (w &&& r.mask) == r.value

/-- The table row of an instruction, transcribed from spec/opcode_table.json, which has the default
parameters (R134). -/
def Instr.row : Instr → Row
  | .int _ => ⟨"int", 0x0FFF00FF, 0x00000001, 0x0FFFFFFF⟩
  | .iret => ⟨"iret", 0x0F0000FF, 0x01000001, 0x0F0000FF⟩
  | .ires => ⟨"ires", 0x0F0000FF, 0x02000001, 0x0F0000FF⟩
  | .usr _ => ⟨"usr", 0x0F0000FF, 0x03000001, 0xFF0000FF⟩
  | .outr _ _ => ⟨"outr", 0x000000FF, 0x00000002, 0xFF0000FF⟩
  | .outi _ _ => ⟨"outi", 0x000000FF, 0x00000003, 0x0FFFFFFF⟩
  | .inr _ _ => ⟨"inr", 0x000000FF, 0x00000004, 0xFF0000FF⟩
  | .ini _ _ => ⟨"ini", 0x000000FF, 0x00000005, 0xF0FFFFFF⟩
  | .jal _ _ => ⟨"jal", 0x000000FF, 0x00000006, 0x0FFFFFFF⟩
  | .jalr _ _ _ => ⟨"jalr", 0x000000FF, 0x00000007, 0xFFFFFFFF⟩
  | .ret => ⟨"ret", 0x000000FF, 0x00000008, 0x000000FF⟩
  | .retr _ => ⟨"retr", 0x000000FF, 0x00000009, 0x0F0000FF⟩
  | .bra _ => ⟨"bra", 0xF00000FF, 0x0000000A, 0xFFFFFFFF⟩
  | .beq _ => ⟨"beq", 0xF00000FF, 0x1000000A, 0xFFFFFFFF⟩
  | .bez _ => ⟨"bez", 0xF00000FF, 0x2000000A, 0xFFFFFFFF⟩
  | .blt _ => ⟨"blt", 0xF00000FF, 0x3000000A, 0xFFFFFFFF⟩
  | .ble _ => ⟨"ble", 0xF00000FF, 0x4000000A, 0xFFFFFFFF⟩
  | .bltu _ => ⟨"bltu", 0xF00000FF, 0x5000000A, 0xFFFFFFFF⟩
  | .bleu _ => ⟨"bleu", 0xF00000FF, 0x6000000A, 0xFFFFFFFF⟩
  | .bne _ => ⟨"bne", 0xF00000FF, 0x9000000A, 0xFFFFFFFF⟩
  | .bnz _ => ⟨"bnz", 0xF00000FF, 0xA000000A, 0xFFFFFFFF⟩
  | .bge _ => ⟨"bge", 0xF00000FF, 0xB000000A, 0xFFFFFFFF⟩
  | .bgt _ => ⟨"bgt", 0xF00000FF, 0xC000000A, 0xFFFFFFFF⟩
  | .bgeu _ => ⟨"bgeu", 0xF00000FF, 0xD000000A, 0xFFFFFFFF⟩
  | .bgtu _ => ⟨"bgtu", 0xF00000FF, 0xE000000A, 0xFFFFFFFF⟩
  | .push _ => ⟨"push", 0x000000FF, 0x0000000B, 0x0F0000FF⟩
  | .pop _ => ⟨"pop", 0x000000FF, 0x0000000C, 0xF00000FF⟩
  | .enter => ⟨"enter", 0x000000FF, 0x0000000D, 0x000000FF⟩
  | .leave => ⟨"leave", 0x000000FF, 0x0000000E, 0x000000FF⟩
  | .lli _ _ => ⟨"lli", 0x0F0000FF, 0x00000010, 0xFFFFFFFF⟩
  | .llis _ _ => ⟨"llis", 0x0F0000FF, 0x01000010, 0xFFFFFFFF⟩
  | .lui _ _ => ⟨"lui", 0x0F0000FF, 0x02000010, 0xFFFFFFFF⟩
  | .luis _ _ => ⟨"luis", 0x0F0000FF, 0x03000010, 0xFFFFFFFF⟩
  | .lti _ _ => ⟨"lti", 0x0F0000FF, 0x04000010, 0xFFFFFFFF⟩
  | .ltis _ _ => ⟨"ltis", 0x0F0000FF, 0x05000010, 0xFFFFFFFF⟩
  | .ltui _ _ => ⟨"ltui", 0x0F0000FF, 0x06000010, 0xFFFFFFFF⟩
  | .ltuis _ _ => ⟨"ltuis", 0x0F0000FF, 0x07000010, 0xFFFFFFFF⟩
  | .lw _ _ _ _ _ => ⟨"lw", 0x000000FF, 0x00000011, 0xFFFFFFFF⟩
  | .lh _ _ _ _ _ => ⟨"lh", 0x000000FF, 0x00000012, 0xFFFFFFFF⟩
  | .lhs _ _ _ _ _ => ⟨"lhs", 0x000000FF, 0x00000013, 0xFFFFFFFF⟩
  | .lq _ _ _ _ _ => ⟨"lq", 0x000000FF, 0x00000014, 0xFFFFFFFF⟩
  | .lqs _ _ _ _ _ => ⟨"lqs", 0x000000FF, 0x00000015, 0xFFFFFFFF⟩
  | .lb _ _ _ _ _ => ⟨"lb", 0x000000FF, 0x00000016, 0xFFFFFFFF⟩
  | .lbs _ _ _ _ _ => ⟨"lbs", 0x000000FF, 0x00000017, 0xFFFFFFFF⟩
  | .sw _ _ _ _ _ => ⟨"sw", 0x000000FF, 0x00000018, 0xFFFFFFFF⟩
  | .sh _ _ _ _ _ => ⟨"sh", 0x000000FF, 0x00000019, 0xFFFFFFFF⟩
  | .sq _ _ _ _ _ => ⟨"sq", 0x000000FF, 0x0000001A, 0xFFFFFFFF⟩
  | .sb _ _ _ _ _ => ⟨"sb", 0x000000FF, 0x0000001B, 0xFFFFFFFF⟩
  | .cmpr _ _ => ⟨"cmpr", 0x000000FF, 0x0000001E, 0xFF0000FF⟩
  | .cmpi _ _ _ => ⟨"cmpi", 0x0E0000FF, 0x0000001F, 0xFFFFFFFF⟩
  | .addr _ _ _ => ⟨"addr", 0x000000FF, 0x00000020, 0xFFF000FF⟩
  | .addi _ _ _ => ⟨"addi", 0x000000FF, 0x00000021, 0xFFFFFFFF⟩
  | .subr _ _ _ => ⟨"subr", 0x000000FF, 0x00000022, 0xFFF000FF⟩
  | .subi _ _ _ => ⟨"subi", 0x000000FF, 0x00000023, 0xFFFFFFFF⟩
  | .imulr _ _ _ => ⟨"imulr", 0x000000FF, 0x00000024, 0xFFF000FF⟩
  | .imuli _ _ _ => ⟨"imuli", 0x000000FF, 0x00000025, 0xFFFFFFFF⟩
  | .idivr _ _ _ => ⟨"idivr", 0x000000FF, 0x00000026, 0xFFF000FF⟩
  | .idivi _ _ _ => ⟨"idivi", 0x000000FF, 0x00000027, 0xFFFFFFFF⟩
  | .umulr _ _ _ => ⟨"umulr", 0x000000FF, 0x00000028, 0xFFF000FF⟩
  | .umuli _ _ _ => ⟨"umuli", 0x000000FF, 0x00000029, 0xFFFFFFFF⟩
  | .udivr _ _ _ => ⟨"udivr", 0x000000FF, 0x0000002A, 0xFFF000FF⟩
  | .udivi _ _ _ => ⟨"udivi", 0x000000FF, 0x0000002B, 0xFFFFFFFF⟩
  | .remr _ _ _ => ⟨"remr", 0x000000FF, 0x0000002C, 0xFFF000FF⟩
  | .remi _ _ _ => ⟨"remi", 0x000000FF, 0x0000002D, 0xFFFFFFFF⟩
  | .modr _ _ _ => ⟨"modr", 0x000000FF, 0x0000002E, 0xFFF000FF⟩
  | .modi _ _ _ => ⟨"modi", 0x000000FF, 0x0000002F, 0xFFFFFFFF⟩
  | .andr _ _ _ => ⟨"andr", 0x000000FF, 0x00000030, 0xFFF000FF⟩
  | .andi _ _ _ => ⟨"andi", 0x000000FF, 0x00000031, 0xFFFFFFFF⟩
  | .orr _ _ _ => ⟨"orr", 0x000000FF, 0x00000032, 0xFFF000FF⟩
  | .ori _ _ _ => ⟨"ori", 0x000000FF, 0x00000033, 0xFFFFFFFF⟩
  | .norr _ _ _ => ⟨"norr", 0x000000FF, 0x00000034, 0xFFF000FF⟩
  | .nori _ _ _ => ⟨"nori", 0x000000FF, 0x00000035, 0xFFFFFFFF⟩
  | .xorr _ _ _ => ⟨"xorr", 0x000000FF, 0x00000036, 0xFFF000FF⟩
  | .xori _ _ _ => ⟨"xori", 0x000000FF, 0x00000037, 0xFFFFFFFF⟩
  | .shlr _ _ _ => ⟨"shlr", 0x000000FF, 0x00000038, 0xFFF000FF⟩
  | .shli _ _ _ => ⟨"shli", 0x000000FF, 0x00000039, 0xFFFFFFFF⟩
  | .asrr _ _ _ => ⟨"asrr", 0x000000FF, 0x0000003A, 0xFFF000FF⟩
  | .asri _ _ _ => ⟨"asri", 0x000000FF, 0x0000003B, 0xFFFFFFFF⟩
  | .lsrr _ _ _ => ⟨"lsrr", 0x000000FF, 0x0000003C, 0xFFF000FF⟩
  | .lsri _ _ _ => ⟨"lsri", 0x000000FF, 0x0000003D, 0xFFFFFFFF⟩
  | .bitr _ _ _ => ⟨"bitr", 0x000000FF, 0x0000003E, 0xFFF000FF⟩
  | .biti _ _ _ => ⟨"biti", 0x000000FF, 0x0000003F, 0xFFFFFFFF⟩
  | .fcmpF16 _ _ => ⟨"fcmp.f16", 0x000F00FF, 0x00000040, 0xFF0F00FF⟩
  | .fcmpF32 _ _ => ⟨"fcmp.f32", 0x000F00FF, 0x00010040, 0xFF0F00FF⟩
  | .fcmpF64 _ _ => ⟨"fcmp.f64", 0x000F00FF, 0x00020040, 0xFF0F00FF⟩
  | .ftoF16 _ _ => ⟨"fto.f16", 0x000F00FF, 0x00000041, 0xFF0F00FF⟩
  | .ftoF32 _ _ => ⟨"fto.f32", 0x000F00FF, 0x00010041, 0xFF0F00FF⟩
  | .ftoF64 _ _ => ⟨"fto.f64", 0x000F00FF, 0x00020041, 0xFF0F00FF⟩
  | .ffromF16 _ _ => ⟨"ffrom.f16", 0x000F00FF, 0x00000042, 0xFF0F00FF⟩
  | .ffromF32 _ _ => ⟨"ffrom.f32", 0x000F00FF, 0x00010042, 0xFF0F00FF⟩
  | .ffromF64 _ _ => ⟨"ffrom.f64", 0x000F00FF, 0x00020042, 0xFF0F00FF⟩
  | .fnegF16 _ _ => ⟨"fneg.f16", 0x000F00FF, 0x00000043, 0xFF0F00FF⟩
  | .fnegF32 _ _ => ⟨"fneg.f32", 0x000F00FF, 0x00010043, 0xFF0F00FF⟩
  | .fnegF64 _ _ => ⟨"fneg.f64", 0x000F00FF, 0x00020043, 0xFF0F00FF⟩
  | .fabsF16 _ _ => ⟨"fabs.f16", 0x000F00FF, 0x00000044, 0xFF0F00FF⟩
  | .fabsF32 _ _ => ⟨"fabs.f32", 0x000F00FF, 0x00010044, 0xFF0F00FF⟩
  | .fabsF64 _ _ => ⟨"fabs.f64", 0x000F00FF, 0x00020044, 0xFF0F00FF⟩
  | .faddF16 _ _ _ => ⟨"fadd.f16", 0x000F00FF, 0x00000045, 0xFFFF00FF⟩
  | .faddF32 _ _ _ => ⟨"fadd.f32", 0x000F00FF, 0x00010045, 0xFFFF00FF⟩
  | .faddF64 _ _ _ => ⟨"fadd.f64", 0x000F00FF, 0x00020045, 0xFFFF00FF⟩
  | .fsubF16 _ _ _ => ⟨"fsub.f16", 0x000F00FF, 0x00000046, 0xFFFF00FF⟩
  | .fsubF32 _ _ _ => ⟨"fsub.f32", 0x000F00FF, 0x00010046, 0xFFFF00FF⟩
  | .fsubF64 _ _ _ => ⟨"fsub.f64", 0x000F00FF, 0x00020046, 0xFFFF00FF⟩
  | .fmulF16 _ _ _ => ⟨"fmul.f16", 0x000F00FF, 0x00000047, 0xFFFF00FF⟩
  | .fmulF32 _ _ _ => ⟨"fmul.f32", 0x000F00FF, 0x00010047, 0xFFFF00FF⟩
  | .fmulF64 _ _ _ => ⟨"fmul.f64", 0x000F00FF, 0x00020047, 0xFFFF00FF⟩
  | .fdivF16 _ _ _ => ⟨"fdiv.f16", 0x000F00FF, 0x00000048, 0xFFFF00FF⟩
  | .fdivF32 _ _ _ => ⟨"fdiv.f32", 0x000F00FF, 0x00010048, 0xFFFF00FF⟩
  | .fdivF64 _ _ _ => ⟨"fdiv.f64", 0x000F00FF, 0x00020048, 0xFFFF00FF⟩
  | .fmaF16 _ _ _ => ⟨"fma.f16", 0x000F00FF, 0x00000049, 0xFFFF00FF⟩
  | .fmaF32 _ _ _ => ⟨"fma.f32", 0x000F00FF, 0x00010049, 0xFFFF00FF⟩
  | .fmaF64 _ _ _ => ⟨"fma.f64", 0x000F00FF, 0x00020049, 0xFFFF00FF⟩
  | .fsqrtF16 _ _ => ⟨"fsqrt.f16", 0x000F00FF, 0x0000004A, 0xFF0F00FF⟩
  | .fsqrtF32 _ _ => ⟨"fsqrt.f32", 0x000F00FF, 0x0001004A, 0xFF0F00FF⟩
  | .fsqrtF64 _ _ => ⟨"fsqrt.f64", 0x000F00FF, 0x0002004A, 0xFF0F00FF⟩
  | .fminF16 _ _ _ => ⟨"fmin.f16", 0x000F00FF, 0x0000004B, 0xFFFF00FF⟩
  | .fminF32 _ _ _ => ⟨"fmin.f32", 0x000F00FF, 0x0001004B, 0xFFFF00FF⟩
  | .fminF64 _ _ _ => ⟨"fmin.f64", 0x000F00FF, 0x0002004B, 0xFFFF00FF⟩
  | .fmaxF16 _ _ _ => ⟨"fmax.f16", 0x000F00FF, 0x0000004C, 0xFFFF00FF⟩
  | .fmaxF32 _ _ _ => ⟨"fmax.f32", 0x000F00FF, 0x0001004C, 0xFFFF00FF⟩
  | .fmaxF64 _ _ _ => ⟨"fmax.f64", 0x000F00FF, 0x0002004C, 0xFFFF00FF⟩
  | .fsatF16 _ _ => ⟨"fsat.f16", 0x000F00FF, 0x0000004D, 0xFF0F00FF⟩
  | .fsatF32 _ _ => ⟨"fsat.f32", 0x000F00FF, 0x0001004D, 0xFF0F00FF⟩
  | .fsatF64 _ _ => ⟨"fsat.f64", 0x000F00FF, 0x0002004D, 0xFF0F00FF⟩
  | .fcnvF16F16 _ _ => ⟨"fcnv.f16_to_f16", 0x000F00FF, 0x0000004E, 0xFF0F00FF⟩
  | .fcnvF16F32 _ _ => ⟨"fcnv.f16_to_f32", 0x000F00FF, 0x0004004E, 0xFF0F00FF⟩
  | .fcnvF16F64 _ _ => ⟨"fcnv.f16_to_f64", 0x000F00FF, 0x0008004E, 0xFF0F00FF⟩
  | .fcnvF32F16 _ _ => ⟨"fcnv.f32_to_f16", 0x000F00FF, 0x0001004E, 0xFF0F00FF⟩
  | .fcnvF32F32 _ _ => ⟨"fcnv.f32_to_f32", 0x000F00FF, 0x0005004E, 0xFF0F00FF⟩
  | .fcnvF32F64 _ _ => ⟨"fcnv.f32_to_f64", 0x000F00FF, 0x0009004E, 0xFF0F00FF⟩
  | .fcnvF64F16 _ _ => ⟨"fcnv.f64_to_f16", 0x000F00FF, 0x0002004E, 0xFF0F00FF⟩
  | .fcnvF64F32 _ _ => ⟨"fcnv.f64_to_f32", 0x000F00FF, 0x0006004E, 0xFF0F00FF⟩
  | .fcnvF64F64 _ _ => ⟨"fcnv.f64_to_f64", 0x000F00FF, 0x000A004E, 0xFF0F00FF⟩
  | .fnanF16 _ _ => ⟨"fnan.f16", 0x000F00FF, 0x0000004F, 0xFF0F00FF⟩
  | .fnanF32 _ _ => ⟨"fnan.f32", 0x000F00FF, 0x0001004F, 0xFF0F00FF⟩
  | .fnanF64 _ _ => ⟨"fnan.f64", 0x000F00FF, 0x0002004F, 0xFF0F00FF⟩

/-- One instruction for each table row of the group, every operand 0 (R201 to R209). -/
def sysIoSamples : List Instr :=
  [.int 0, .iret, .ires, .usr 0, .outr 0 0, .outi 0 0,
   .inr 0 0, .ini 0 0]

/-- One instruction for each table row of the group, every operand 0 (R231 to R248). -/
def controlSamples : List Instr :=
  [.jal 0 0, .jalr 0 0 0, .ret, .retr 0, .bra 0, .beq 0,
   .bez 0, .blt 0, .ble 0, .bltu 0, .bleu 0, .bne 0,
   .bnz 0, .bge 0, .bgt 0, .bgeu 0, .bgtu 0]

/-- One instruction for each table row of the group, every operand 0 (R271 to R298). -/
def stackImmSamples : List Instr :=
  [.push 0, .pop 0, .enter, .leave, .lli 0 0, .llis 0 0,
   .lui 0 0, .luis 0 0, .lti 0 0, .ltis 0 0, .ltui 0 0, .ltuis 0 0]

/-- One instruction for each table row of the group, every operand 0 (R311 to R342). -/
def loadStoreSamples : List Instr :=
  [.lw 0 0 0 0 0, .lh 0 0 0 0 0, .lhs 0 0 0 0 0, .lq 0 0 0 0 0, .lqs 0 0 0 0 0, .lb 0 0 0 0 0,
   .lbs 0 0 0 0 0, .sw 0 0 0 0 0, .sh 0 0 0 0 0, .sq 0 0 0 0 0, .sb 0 0 0 0 0, .cmpr 0 0,
   .cmpi .registerFirst 0 0]

/-- One instruction for each table row of the group, every operand 0 (R351 to R382). -/
def aluSamples : List Instr :=
  [.addr 0 0 0, .addi 0 0 0, .subr 0 0 0, .subi 0 0 0, .imulr 0 0 0, .imuli 0 0 0,
   .idivr 0 0 0, .idivi 0 0 0, .umulr 0 0 0, .umuli 0 0 0, .udivr 0 0 0, .udivi 0 0 0,
   .remr 0 0 0, .remi 0 0 0, .modr 0 0 0, .modi 0 0 0, .andr 0 0 0, .andi 0 0 0,
   .orr 0 0 0, .ori 0 0 0, .norr 0 0 0, .nori 0 0 0, .xorr 0 0 0, .xori 0 0 0,
   .shlr 0 0 0, .shli 0 0 0, .asrr 0 0 0, .asri 0 0 0, .lsrr 0 0 0, .lsri 0 0 0,
   .bitr 0 0 0, .biti 0 0 0]

/-- One instruction for each table row of the group, every operand 0 (R401 to R416). -/
def floatSamples : List Instr :=
  [.fcmpF16 0 0, .fcmpF32 0 0, .fcmpF64 0 0, .ftoF16 0 0, .ftoF32 0 0, .ftoF64 0 0,
   .ffromF16 0 0, .ffromF32 0 0, .ffromF64 0 0, .fnegF16 0 0, .fnegF32 0 0, .fnegF64 0 0,
   .fabsF16 0 0, .fabsF32 0 0, .fabsF64 0 0, .faddF16 0 0 0, .faddF32 0 0 0, .faddF64 0 0 0,
   .fsubF16 0 0 0, .fsubF32 0 0 0, .fsubF64 0 0 0, .fmulF16 0 0 0, .fmulF32 0 0 0, .fmulF64 0 0 0,
   .fdivF16 0 0 0, .fdivF32 0 0 0, .fdivF64 0 0 0, .fmaF16 0 0 0, .fmaF32 0 0 0, .fmaF64 0 0 0,
   .fsqrtF16 0 0, .fsqrtF32 0 0, .fsqrtF64 0 0, .fminF16 0 0 0, .fminF32 0 0 0, .fminF64 0 0 0,
   .fmaxF16 0 0 0, .fmaxF32 0 0 0, .fmaxF64 0 0 0, .fsatF16 0 0, .fsatF32 0 0, .fsatF64 0 0,
   .fcnvF16F16 0 0, .fcnvF16F32 0 0, .fcnvF16F64 0 0, .fcnvF32F16 0 0, .fcnvF32F32 0 0, .fcnvF32F64 0 0,
   .fcnvF64F16 0 0, .fcnvF64F32 0 0, .fcnvF64F64 0 0, .fnanF16 0 0, .fnanF32 0 0, .fnanF64 0 0]

/-- One instruction for each of the 136 rows. -/
def allSamples : List Instr :=
  sysIoSamples ++ controlSamples ++ stackImmSamples ++ loadStoreSamples ++ aluSamples ++ floatSamples

/-- The 136 rows of the table. -/
def opcodeRows : List Row := allSamples.map Instr.row

/-! ### Canonical words (R131, R132) -/

/-- The bits of a variant's words that are not unused: the opcode, the used fields and the dispatch fields (R132). -/
def usedMask (P : BlockParams) (h : Head) : InstrWord :=
  packFields (P.formatOf h.kind) ((P.used h).union h.dispatchMask) 0xFF

/-- canon(w) under given parameters: a valid word with every unused field set to zero; an invalid word has none
(R131(c)). -/
def canonWith (P : BlockParams) (w : InstrWord) : Option InstrWord :=
  match decodeVariant P w with
  | .error _ => none
  | .ok v => some (w &&& usedMask P v.head)

/-- Under given parameters, a valid word is canonical when all its unused fields are zero (R132). -/
def isCanonicalWith (P : BlockParams) (w : InstrWord) : Bool := canonWith P w == some w

/-- canon(w) with the default parameters. -/
def canon (w : InstrWord) : Option InstrWord := canonWith defaultParams w

/-- Canonical words with the default parameters. -/
def isCanonical (w : InstrWord) : Bool := isCanonicalWith defaultParams w

/-! ### The decoder port (R142) -/

/-- The mnemonic of a variant, one of 98 (R137, R142). -/
def Head.mnemonic : Head → Mnemonic
  | .sysctl .int => .int
  | .sysctl .iret => .iret
  | .sysctl .ires => .ires
  | .sysctl .usr => .usr
  | .single .outr => .outr
  | .single .outi => .outi
  | .single .inr => .inr
  | .single .ini => .ini
  | .single .jal => .jal
  | .single .jalr => .jalr
  | .single .ret => .ret
  | .single .retr => .retr
  | .branch .always => .bra
  | .branch .eq => .beq
  | .branch .ez => .bez
  | .branch .lt => .blt
  | .branch .le => .ble
  | .branch .ltu => .bltu
  | .branch .leu => .bleu
  | .branch .ne => .bne
  | .branch .nz => .bnz
  | .branch .ge => .bge
  | .branch .gt => .bgt
  | .branch .geu => .bgeu
  | .branch .gtu => .bgtu
  | .single .push => .push
  | .single .pop => .pop
  | .single .enter => .enter
  | .single .leave => .leave
  | .loadImm .lli => .lli
  | .loadImm .llis => .llis
  | .loadImm .lui => .lui
  | .loadImm .luis => .luis
  | .loadImm .lti => .lti
  | .loadImm .ltis => .ltis
  | .loadImm .ltui => .ltui
  | .loadImm .ltuis => .ltuis
  | .single .lw => .lw
  | .single .lh => .lh
  | .single .lhs => .lhs
  | .single .lq => .lq
  | .single .lqs => .lqs
  | .single .lb => .lb
  | .single .lbs => .lbs
  | .single .sw => .sw
  | .single .sh => .sh
  | .single .sq => .sq
  | .single .sb => .sb
  | .single .cmpr => .cmpr
  | .cmpi _ => .cmpi
  | .single (.aluReg .add) => .addr
  | .single (.aluImm .add) => .addi
  | .single (.aluReg .sub) => .subr
  | .single (.aluImm .sub) => .subi
  | .single (.aluReg .imul) => .imulr
  | .single (.aluImm .imul) => .imuli
  | .single (.aluReg .idiv) => .idivr
  | .single (.aluImm .idiv) => .idivi
  | .single (.aluReg .umul) => .umulr
  | .single (.aluImm .umul) => .umuli
  | .single (.aluReg .udiv) => .udivr
  | .single (.aluImm .udiv) => .udivi
  | .single (.aluReg .rem) => .remr
  | .single (.aluImm .rem) => .remi
  | .single (.aluReg .mod) => .modr
  | .single (.aluImm .mod) => .modi
  | .single (.aluReg .and) => .andr
  | .single (.aluImm .and) => .andi
  | .single (.aluReg .or) => .orr
  | .single (.aluImm .or) => .ori
  | .single (.aluReg .nor) => .norr
  | .single (.aluImm .nor) => .nori
  | .single (.aluReg .xor) => .xorr
  | .single (.aluImm .xor) => .xori
  | .single (.aluReg .shl) => .shlr
  | .single (.aluImm .shl) => .shli
  | .single (.aluReg .asr) => .asrr
  | .single (.aluImm .asr) => .asri
  | .single (.aluReg .lsr) => .lsrr
  | .single (.aluImm .lsr) => .lsri
  | .single (.aluReg .bit) => .bitr
  | .single (.aluImm .bit) => .biti
  | .float .fcmp _ => .fcmp
  | .float .fto _ => .fto
  | .float .ffrom _ => .ffrom
  | .float .fneg _ => .fneg
  | .float .fabs _ => .fabs
  | .float .fadd _ => .fadd
  | .float .fsub _ => .fsub
  | .float .fmul _ => .fmul
  | .float .fdiv _ => .fdiv
  | .float .fma _ => .fma
  | .float .fsqrt _ => .fsqrt
  | .float .fmin _ => .fmin
  | .float .fmax _ => .fmax
  | .float .fsat _ => .fsat
  | .fcnv _ _ => .fcnv
  | .float .fnan _ => .fnan

/-- The mnemonic of an instruction. -/
def Instr.mnemonic (i : Instr) : Mnemonic := i.head.mnemonic

/-- The outputs of the decoder (R142). An output that the rule leaves unspecified is absent, never a value. -/
structure DecoderPort where
  valid : Bool
  failReason : BitVec 2
  fmt : Option Format := none
  rde : Option Nibble := none
  rs1 : Option Nibble := none
  rs2 : Option Nibble := none
  func : Option Nibble := none
  imm : Option (BitVec 20) := none
  uimm : Option Word := none
  simm : Option Word := none
  mnemonic : Option Mnemonic := none
  cond : Option BranchCond := none
  litype : Option LiType := none
  prec : Option FloatPrec := none
  precFrom : Option FloatPrec := none
  precTo : Option FloatPrec := none
  order : Option CompareOrder := none
  intr : Option IntId := none
  deriving DecidableEq, Repr

/-- The code of a format on the `fmt` port (R142). -/
def Format.code : Format → BitVec 3
  | .e => 0 | .r => 1 | .m => 2 | .f => 3 | .b => 4

/-- The format outputs of R142 for a word under a format: its fields, a field it lacks reading 0, and its immediate raw,
zero-extended and sign-extended (R109). -/
def portFields (fmt : Format) (w : InstrWord) (base : DecoderPort) : DecoderPort :=
  let f := readFields fmt w
  { base with
    fmt := some fmt, rde := some f.rde, rs1 := some f.rs1, rs2 := some f.rs2, func := some f.func,
    imm := some f.imm, uimm := some (uimm f.imm), simm := some (sext fmt.immWidth (uimm f.imm)) }

/-- The mnemonic and sub-code outputs of R142 for a variant: each sub-code is present in the variant that carries it
(R118, R121 to R126). -/
def portVariant (v : Variant) (base : DecoderPort) : DecoderPort :=
  let named : DecoderPort := { base with mnemonic := some v.head.mnemonic }
  match v.head with
  | .single _ => named
  | .sysctl .int => { named with intr := some v.operands.imm8 }
  | .sysctl _ => named
  | .branch c => { named with cond := some c }
  | .loadImm t => { named with litype := some t }
  | .cmpi o => { named with order := some o }
  | .float _ p => { named with prec := some p }
  | .fcnv f t => { named with precFrom := some f, precTo := some t }

/-- The decoder's outputs for a word (R142) under given parameters: with BAD_OPCODE only `valid` and `fail_reason` are
specified, with the other reasons the format outputs too. -/
def decoderPortWith (P : BlockParams) (w : InstrWord) : DecoderPort :=
  match P.kindOf (opcodeOf w) with
  | none => { valid := false, failReason := FailReason.badOpcode.code }
  | some k =>
    match decodeVariant P w with
    | .ok v => portVariant v (portFields (P.formatOf k) w { valid := true, failReason := 0 })
    | .error r => portFields (P.formatOf k) w { valid := false, failReason := r.code }

/-- The decoder's outputs for a word (R142) with the default parameters. -/
def decoderPort (w : InstrWord) : DecoderPort := decoderPortWith defaultParams w

end Sys2Proof
end

