-- ==== Sys2Proof/Config.lean ====
section
/-! DEFINITION. Config: what the spec leaves to "parameters" of the executing machine and of the two collaborator
blocks (spec 00_scope.md R6, 93_implementation_defined.md part 1). Each is an `opaque` constant: it has no body, so a
statement about the model holds for every value it could have. The types below list the alternatives the spec leaves.
Constants that take a `Nat` last are free values: the argument is `State.draws`, so that each use is a fresh value. -/
namespace Sys2Proof

/-- The mode of the machine: user mode, which `usr` enters, or not user mode; R512 names no other mode. -/
inductive Mode
  | nonUser | user
  deriving DecidableEq, Repr, Inhabited

/-- The order of the bytes of a datum in memory; the spec does not state it (91_not_in_source.md N16). -/
inductive ByteOrder
  | little | big
  deriving DecidableEq, Repr, Inhabited

/-- The two extensions of a raw immediate that the decoder supplies (R109). -/
inductive ImmExt
  | zero | sign
  deriving DecidableEq, Repr, Inhabited

/-- The values of FLOAT_UPPER_BITS (decision D32). -/
inductive UpperBits
  | preserve | zero
  deriving DecidableEq, Repr, Inhabited

/-- The rounding directions of IEEE 754, one of the FLOAT_NUMERICS (decision D25). -/
inductive RoundingMode
  | nearestEven | nearestAway | towardZero | towardPositive | towardNegative
  deriving DecidableEq, Repr, Inhabited

/-- The width of the integer of a float-integer cast (decision D27). -/
inductive IntWidth
  | w8 | w16 | w32 | w64
  deriving DecidableEq, Repr, Inhabited

/-- The integer type of a float-integer cast: its signedness and width (decision D27). -/
structure CastInt where
  signed : Bool
  width : IntWidth
  deriving DecidableEq, Repr, Inhabited

/-- What the machine does with an absent helper result: "callers must decide fallback/trap behavior" (R444, U6). -/
inductive ArithFailure
  /-- go on with this value in the destination register -/
  | fallback (value : Word)
  /-- raise the interrupt with this identifier -/
  | trap (id : IntId)
  deriving DecidableEq, Repr, Inhabited

/-- The float tests that answer in a 64-bit container: all but the NaN test (R460, R463). -/
inductive FloatTest
  | equal | less | signBit | exactZero
  deriving DecidableEq, Repr

namespace Config

/-- ALU_IMM_EXT (D13, R350): which extension the immediate form of an operation reads. -/
opaque aluImmExt : AluOp → ImmExt

/-- Which extension of the immediate `cmpi` compares; "not in the source" (R342). -/
opaque cmpImmExt : ImmExt

/-- SHIFT_OVER_WIDTH (D18): the result of a shift by 64 or more, as a function of the operands. -/
opaque shiftOverWidth : ShiftOp → Word → Word → Word

/-- BIT_INDEX_OVER_WIDTH (D26): `bit a b` for an index of 64 or more, as a function of the operands. -/
opaque bitIndexOverWidth : Word → Word → Word

/-- U6: what the machine does when a divide helper answers absent for these operands. -/
opaque arithFailure : DivOp → Word → Word → ArithFailure

/-- The byte order of data in memory (N16, U19). -/
opaque dataOrder : ByteOrder

/-- The general register that the stack instructions use as stack pointer (N7; named `sp` in 42_stack.md). -/
opaque spReg : RegId

/-- The general register that `enter` and `leave` use as frame pointer (N7). -/
opaque fpReg : RegId

/-- The zero flag that comparing the first value with the second sets; the spec does not state it (N30). -/
opaque compareZero : Word → Word → Bool

/-- The zero flag of a float compare, as a function of the two containers (N30, R463). -/
opaque floatCompareZero : FloatPrec → Word → Word → Bool

/-- The unsigned less-than flag of a float compare, as a function of the two containers (N30, R463). -/
opaque floatCompareLtu : FloatPrec → Word → Word → Bool

/-- FLOAT_UPPER_BITS (D32): the bits above a narrow float pattern in a result. -/
opaque floatUpperBits : UpperBits

/-- FLOAT_NUMERICS: the rounding direction of an operation with a result of this precision (D25). -/
opaque rounding : FloatOp → FloatPrec → RoundingMode

/-- FLOAT_NUMERICS: whether an operation reads a subnormal operand as a zero of its sign (D25). -/
opaque flushesOperands : FloatOp → FloatPrec → Bool

/-- FLOAT_NUMERICS: whether the exact-zero test answers true for a subnormal (R463, D25, U11; N20). -/
opaque zeroTestFlushes : FloatPrec → Bool

/-- FLOAT_NUMERICS: whether an operation replaces a result that is subnormal after rounding by a zero of its sign (D25;
log 21). -/
opaque flushesResults : FloatOp → FloatPrec → Bool

/-- FLOAT_NUMERICS: sign and payload of a NaN result, from the operation and its operand patterns (D25). -/
opaque nanBits : FloatOp → FloatPrec → Word → Word → Word → Word

/-- FLOAT_NUMERICS: the result pattern of `fmin` and `fmax` when an operand is a NaN (D25). -/
opaque minMaxNan : FloatOp → FloatPrec → Word → Word → Word

/-- FLOAT_NUMERICS: whether `fmin` and `fmax` of two zeros of opposite sign answer the first (D25). -/
opaque minMaxFirstZero : FloatOp → FloatPrec → Word → Word → Bool

/-- FLOAT_NUMERICS: the container in which a test returns the answer true or false (R463, D25, U11; N20). -/
opaque testResult : FloatTest → FloatPrec → Bool → Word

/-- FLOAT_NUMERICS: whether `fma` rounds once, or the product and then the sum (D25, R466). -/
opaque fmaRoundsOnce : FloatPrec → Bool

/-- The sign (true: negative) of the zero that rounding up a value between -1 and 0 gives; not stated (R467). -/
opaque ceilZeroSign : FloatPrec → Word → Bool

/-- FLOAT_NUMERICS: the integer type of the casts of this precision (D27). -/
opaque castInt : FloatPrec → CastInt

/-- Where control goes when an interrupt is raised (R201, R509; N11): a free value for each draw. -/
opaque trapTarget : IntId → Nat → Word

/-- The mode after an interrupt is raised (R509, R512; N11, N13): a free value for each draw. -/
opaque trapMode : IntId → Nat → Mode

/-- Where control goes on return from interrupt (R202, R510; N11): a free value for each draw. -/
opaque iretTarget : Nat → Word

/-- The mode after return from interrupt (R202, R510; N11, N13): a free value for each draw. -/
opaque iretMode : Nat → Mode

/-- The value read from a port (R208, R209; no device is placed at any port, R514): a free value for each draw. -/
opaque portInput : Port → Nat → Word

end Config

end Sys2Proof
end

