-- ==== Sys2Proof/Machine/State.lean ====
section
/-! DEFINITION. State: every piece of state the spec gives the machine around the block, as plain data; the faults and
refusals; the machine right after reset. The encoder/decoder block holds no state (spec 10_state.md R30): what is held
here is what the decoded instructions name (R40 to R44) and what their Meaning lines read and write. -/
namespace Sys2Proof.Machine

/-- Why the machine stops: a decode failure, which the consumer of the block "must treat as invalid/illegal
instruction" (R500) and which U5 of 93_implementation_defined.md treats as a fault. Raised by `step` alone, with
nothing changed. Safe: the machine stops where a real one would take its own recovery. -/
inductive Fault
  /-- Raised by `step` when the fetched word's opcode is unassigned (R112, R501). Safe. -/
  | badOpcode
  /-- Raised by `step` when the fetched word's sub-code has no meaning in its family (R113, R501). Safe. -/
  | badSubcode
  /-- Raised by `step` on `int` with a non-zero high byte (R118, R501). Safe. -/
  | badIntHighByte
  deriving DecidableEq, Repr

/-- Why the model gives no meaning. -/
inductive Refusal
  /-- An instruction the model does not cover, by its mnemonic; raised by an arm of `exec` only. Safe. -/
  | notModelled (mnemonic : String)
  deriving DecidableEq, Repr

/-- The status flags that a compare sets and the branch conditions test (R42, R122). -/
structure Flags where
  /-- condition "equal" -/
  eq : Bool
  /-- condition "zero" -/
  zero : Bool
  /-- condition "less than (signed)" -/
  lt : Bool
  /-- condition "less than (unsigned)" -/
  ltu : Bool
  deriving DecidableEq, Repr

/-- What the machine tells the interrupt controller, which is outside the model (R201 to R203, R507). -/
inductive IntCommand
  /-- `int`, or a trap on an arithmetic failure: raise this interrupt -/
  | raised (id : IntId)
  /-- `iret`: return from interrupt -/
  | returned
  /-- `ires`: resolve interrupt -/
  | resolved
  deriving DecidableEq, Repr

/-- A value written to a port (R206, R207). -/
structure PortWrite where
  port : Port
  value : Word
  deriving DecidableEq, Repr

/-- The machine's state. One set of registers and flags serves both modes: nothing is banked when the mode changes
(R512, N13; log 17). No IEEE exception flags (R465, N20; log 35), and nothing that says a handler runs (R510, N11; log
14). -/
structure State where
  /-- the 16 general registers, identifier n at index n (R33, R40) -/
  regs : Vector Word 16
  /-- the program counter (R41; the Meaning lines of 41_control_flow.md) -/
  pc : Word
  /-- the status flags (R42) -/
  flags : Flags
  /-- user mode or not (R512) -/
  mode : Mode
  /-- memory, in the canonical form of `Memory.wf` (R56) -/
  mem : List Host.Cell
  /-- the commands sent to the interrupt controller, oldest first (R507) -/
  intCmds : List IntCommand
  /-- the values written to ports, oldest first (R56, R206, R207) -/
  portOuts : List PortWrite
  /-- the MODEL's own field: how many free values have been drawn (log 28) -/
  draws : Nat
  deriving DecidableEq, Repr

/-- The flags after reset: DESIGN CHOICE, all false (log 6). -/
def Flags.reset : Flags := { eq := false, zero := false, lt := false, ltu := false }

/-- The machine right after reset. The spec gives no reset value (R530, 91_not_in_source.md N19): every value here is a
DESIGN CHOICE of the log (3, 5, 6, 12, 13, 14, 17, 28), those of `regs` and `pc` as 95_test_vectors.md Part 3 starts
its programs. -/
def State.reset : State where
  regs := Vector.replicate 16 0
  pc := 0
  flags := Flags.reset
  mode := .nonUser
  mem := []
  intCmds := []
  portOuts := []
  draws := 0

end Sys2Proof.Machine
end

