-- ==== Sys2Proof/Machine/Memory.lean ====
section
/-! DEFINITION. Memory: bytes at 64-bit addresses, held as a list of cells in one canonical form, and accesses of
several bytes in the machine's data byte order (spec 20_memory.md R56 to R60; logs 10, 11, 12). -/
namespace Sys2Proof.Machine

/-- Memory as the state holds it. -/
abbrev Memory := List Host.Cell

/-- What an address that is not listed reads as: DESIGN CHOICE 0 (log 12). -/
def Memory.unlisted : Byte := 0

/-- The byte at an address. -/
def Memory.read (m : Memory) (a : Nat) : Byte :=
  match m with
  | [] => Memory.unlisted
  | c :: rest => if c.1 = a then c.2 else Memory.read rest a

/-- Insert a byte that is not the unlisted one, or remove the cell where it is. -/
def Memory.put (a : Nat) (v : Byte) (rest : Memory) : Memory :=
  if v = Memory.unlisted then rest else (a, v) :: rest

/-- Write one byte, keeping the canonical form: writing the value an unlisted address reads as removes the cell. -/
def Memory.write (m : Memory) (a : Nat) (v : Byte) : Memory :=
  match m with
  | [] => Memory.put a v []
  | c :: rest =>
    if a < c.1 then Memory.put a v (c :: rest)
    else if a = c.1 then Memory.put a v rest
    else c :: Memory.write rest a v

/-- Every cell lies above address `lo`, in rising order. -/
def Memory.risingFrom (lo : Nat) (m : Memory) : Bool :=
  match m with
  | [] => true
  | c :: rest =>
    decide (lo ≤ c.1) && decide (c.1 < 2 ^ 64) && decide (c.2 ≠ Memory.unlisted) && Memory.risingFrom (c.1 + 1) rest

/-- The canonical form: addresses strictly rising and inside the 64-bit space, no cell equal to what an unlisted
address reads as. -/
def Memory.wf (m : Memory) : Bool := Memory.risingFrom 0 m

/-- `n` bytes from address `a` up; addresses wrap at 2^64 (log 10). -/
def Memory.readBytes (m : Memory) (a : Word) (n : Nat) : List Byte :=
  match n with
  | 0 => []
  | k + 1 => Memory.read m a.toNat :: Memory.readBytes m (a + 1) k

/-- Write bytes from address `a` up; addresses wrap at 2^64 (log 10). -/
def Memory.writeBytes (m : Memory) (a : Word) (bs : List Byte) : Memory :=
  match bs with
  | [] => m
  | b :: rest => Memory.writeBytes (Memory.write m a.toNat b) (a + 1) rest

/-- The low `n` bytes of a value, least significant first. -/
def bytesLittle (n : Nat) (v : Word) : List Byte :=
  match n with
  | 0 => []
  | k + 1 => v.extractLsb' 0 8 :: bytesLittle k (v >>> 8)

/-- The value of bytes given least significant first. -/
def wordLittle (bs : List Byte) : Word :=
  match bs with
  | [] => 0
  | b :: rest => b.setWidth 64 ||| wordLittle rest <<< 8

/-- The bytes of an `n`-byte datum at rising addresses, in a byte order. -/
def datumBytes (o : ByteOrder) (n : Nat) (v : Word) : List Byte :=
  match o with
  | .little => bytesLittle n v
  | .big => (bytesLittle n v).reverse

/-- The datum that bytes at rising addresses hold, in a byte order. -/
def datumOfBytes (o : ByteOrder) (bs : List Byte) : Word :=
  match o with
  | .little => wordLittle bs
  | .big => wordLittle bs.reverse

/-- `MemRead(a, n)` of the Meaning lines: `n` bytes as an unsigned value (R11; log 11). -/
def Memory.readDatum (m : Memory) (a : Word) (n : Nat) : Word :=
  datumOfBytes Config.dataOrder (Memory.readBytes m a n)

/-- `MemWrite(a, n, v)` of the Meaning lines: the low `n` bytes of a value (R11; log 11). -/
def Memory.writeDatum (m : Memory) (a : Word) (n : Nat) (v : Word) : Memory :=
  Memory.writeBytes m a (datumBytes Config.dataOrder n v)

end Sys2Proof.Machine
end

