-- ==== Sys2Proof/Machine/Ops.lean ====
section
/-! DEFINITION. Ops: the named operations over the state that the meanings are written with: registers, program counter,
memory, fetching, ports, and raising and returning from an interrupt. -/
namespace Sys2Proof.Machine

/-- What executing an instruction answers. -/
abbrev StepResult := Host.Outcome State Fault Refusal

/-! ### Registers, program counter, flags, mode -/

/-- `x[r]`: the value of a general register; no register is hard-wired (R40). -/
def State.reg (s : State) (r : RegId) : Word := s.regs[r.toNat]'(r.isLt)

/-- `x[r] <- v`. -/
def State.setReg (s : State) (r : RegId) (v : Word) : State :=
  { s with regs := s.regs.set r.toNat v r.isLt }

/-- `pc <- v`. -/
def State.setPc (s : State) (v : Word) : State := { s with pc := v }

/-- The address after the instruction at pc: 4 more, wrapping (R55; 95_test_vectors.md Part 3; log 5). -/
def State.nextPc (s : State) : Word := s.pc + 4

/-- Go on with the next instruction. -/
def State.advance (s : State) : State := s.setPc s.nextPc

/-- Set the status flags. -/
def State.setFlags (s : State) (f : Flags) : State := { s with flags := f }

/-- Set the mode. -/
def State.setMode (s : State) (m : Mode) : State := { s with mode := m }

/-! ### Memory -/

/-- The byte of memory at an address. -/
def State.readByte (s : State) (a : Word) : Byte := Memory.read s.mem a.toNat

/-- `MemRead(a, n)` (R11). Every address is plain storage: the read has no further effect, and gives the bytes last
written there (side-effecting addresses are open: R58; log 12, DESIGN CHOICE). -/
def State.memRead (s : State) (a : Word) (n : Nat) : Word := Memory.readDatum s.mem a n

/-- `MemWrite(a, n, v)` (R11). Every address is plain storage: the write changes the bytes there and has no further
effect (side-effecting addresses are open: R58; log 12, DESIGN CHOICE). -/
def State.memWrite (s : State) (a : Word) (n : Nat) (v : Word) : State :=
  { s with mem := Memory.writeDatum s.mem a n v }

/-- The instruction word at pc: four bytes, little-endian whatever the data order (R50, R51); no alignment is required
(R54, N17; log 5). -/
def State.fetch (s : State) : InstrWord :=
  wordOfBytes (s.readByte s.pc) (s.readByte (s.pc + 1)) (s.readByte (s.pc + 2)) (s.readByte (s.pc + 3))

/-- Store an instruction word at pc, little-endian (R50). -/
def State.placeWord (s : State) (w : InstrWord) : State :=
  { s with
    mem := Memory.writeBytes s.mem s.pc [byteOfWord 0 w, byteOfWord 1 w, byteOfWord 2 w, byteOfWord 3 w] }

/-- The fault of a decode failure (R500, U5; log 29). -/
def faultOf : FailReason → Fault
  | .badOpcode => .badOpcode
  | .badSubcode => .badSubcode
  | .badIntHighByte => .badIntHighByte

/-! ### Free values -/

/-- One more free value has been drawn (log 28). -/
def State.draw (s : State) : State := { s with draws := s.draws + 1 }

/-! ### Ports (R205 to R209) -/

/-- A value goes out to a port (R206, R207; log 13). -/
def State.portWrite (s : State) (p : Port) (v : Word) : State :=
  { s with portOuts := s.portOuts ++ [{ port := p, value := v }] }

/-- The value a port gives now: a free value (R208, R209, R514; log 13). -/
def State.portRead (s : State) (p : Port) : Word := Config.portInput p s.draws

/-- A register receives the value a port gives (R208, R209). -/
def State.inputTo (s : State) (rde : RegId) (p : Port) : State := ((s.setReg rde (s.portRead p)).draw).advance

/-! ### Interrupts (R201 to R203, R507 to R510) -/

/-- Send a command to the interrupt controller. -/
def State.sendInt (s : State) (c : IntCommand) : State := { s with intCmds := s.intCmds ++ [c] }

/-- TAKING AN EXCEPTION: raise an interrupt (R201). The identifier goes to the interrupt controller; where control goes
and in which mode is not in the spec (R509; N11, N13) and is a free value; nothing else changes (log 14). A trap inside a
handler is taken exactly as a first one: no state says that a handler runs (R510; N11; log 14). The trap is precise: it
is taken in the step of its own instruction, after the whole effect of every earlier one and before any later one (R509
leaves precision open; N11; log 14, DESIGN CHOICE). -/
def State.takeTrap (s : State) (id : IntId) : State :=
  (((s.sendInt (.raised id)).setPc (Config.trapTarget id s.draws)).setMode (Config.trapMode id s.draws)).draw

/-- RETURN FROM AN EXCEPTION (R202): the controller is told; where control goes and in which mode is not in the spec
(R510; N11, N13) and is a free value; nothing else changes (log 15). How it re-enables interrupts is open (R510; N11): the
machine holds no enable bit and no mask, and `iret` changes none (log 15, DESIGN CHOICE). -/
def State.returnFromTrap (s : State) : State :=
  (((s.sendInt .returned).setPc (Config.iretTarget s.draws)).setMode (Config.iretMode s.draws)).draw

/-- An absent result of a divide helper (R444, U6): a fallback value in the destination, or a trap (log 18). The trap is
precise: taken in the division's own step, with the destination not written (R509, N11; log 18, DESIGN CHOICE). -/
def State.arithFail (s : State) (op : DivOp) (a b : Word) (rde : RegId) : State :=
  match Config.arithFailure op a b with
  | .fallback v => (s.setReg rde v).advance
  | .trap id => s.takeTrap id

end Sys2Proof.Machine
end

