-- ==== Sys2Proof/Machine/Arith.lean ====
section
/-! DEFINITION. Arith: the arithmetic helper layer, "the executing machine uses to give meaning to the
arithmetic/bitwise variants" (spec 48_helper_arith.md R430 to R445). Signed readings are exact integers; results are
reduced to 64 bits at the end. -/
namespace Sys2Proof.Machine

/-- The result record of `add` and `sub` (R431). -/
structure AddResult where
  result : Word
  unsignedOverflow : Bool
  signedOverflow : Bool
  deriving DecidableEq, Repr

/-- The carry as a number (R432). -/
def carryNat (carry : Bool) : Nat := if carry then 1 else 0

/-- Whether an exact integer lies outside [-2^63, 2^63 - 1] (R432). -/
def outsideSigned64 (v : Int) : Bool := decide (v < -2 ^ 63) || decide (2 ^ 63 - 1 < v)

/-- `wrap64`: reduction into [-2^63, 2^63 - 1] modulo 2^64 (R432). -/
def wrapSigned64 (v : Int) : Int := v.bmod (2 ^ 64)

/-- `add(a, b, carry)`: two unsigned steps give the result and the unsigned flag, two signed steps the signed flag
(R432, R433). -/
def helperAdd (a b : Word) (carry : Bool) : AddResult :=
  let c := carryNat carry
  let r1 := a + b
  let s1 := a.toInt + b.toInt
  let s2 := wrapSigned64 s1 + c
  { result := r1 + BitVec.ofNat 64 c,
    unsignedOverflow := decide (2 ^ 64 ≤ a.toNat + b.toNat) || decide (2 ^ 64 ≤ r1.toNat + c),
    signedOverflow := outsideSigned64 s1 || outsideSigned64 s2 }

/-- `sub(a, b, carry)`: the same with the borrow subtracted in both domains (R434; log 19). -/
def helperSub (a b : Word) (carry : Bool) : AddResult :=
  let c := carryNat carry
  let r1 := a - b
  let s1 := a.toInt - b.toInt
  let s2 := wrapSigned64 s1 - c
  { result := r1 - BitVec.ofNat 64 c,
    unsignedOverflow := decide (a.toNat < b.toNat) || decide (r1.toNat < c),
    signedOverflow := outsideSigned64 s1 || outsideSigned64 s2 }

/-- `imul(a, b)`: the low 64 bits of the signed product (R435). -/
def helperImul (a b : Word) : Word := BitVec.ofInt 64 (a.toInt * b.toInt)

/-- `umul(a, b)`: the low 64 bits of the unsigned product (R435). -/
def helperUmul (a b : Word) : Word := BitVec.ofNat 64 (a.toNat * b.toNat)

/-- The operands on which the signed divide helpers answer absent: a zero divisor, or MIN divided by -1 (R436). -/
def signedDivFails (a b : Word) : Bool := b == 0 || (a == 0x8000000000000000 && b == 0xFFFFFFFFFFFFFFFF)

/-- `idiv(a, b)`: the signed quotient truncated toward zero (R436). -/
def helperIdiv (a b : Word) : Option Word :=
  if signedDivFails a b then none else some (BitVec.ofInt 64 (a.toInt.tdiv b.toInt))

/-- `udiv(a, b)`: the floor of the unsigned quotient (R437). -/
def helperUdiv (a b : Word) : Option Word :=
  if b = 0 then none else some (BitVec.ofNat 64 (a.toNat / b.toNat))

/-- `rem(a, b)`: the signed truncating remainder (R438). -/
def helperRem (a b : Word) : Option Word :=
  if signedDivFails a b then none else some (BitVec.ofInt 64 (a.toInt - b.toInt * a.toInt.tdiv b.toInt))

/-- `mod(a, b)`: the signed Euclidean remainder, never negative (R439). -/
def helperMod (a b : Word) : Option Word :=
  if signedDivFails a b then none else some (BitVec.ofInt 64 (a.toInt.emod b.toInt))

/-- `nor(a, b)` (R440). -/
def helperNor (a b : Word) : Word := ~~~(a ||| b)

/-- `shl(a, b)`; an amount of 64 or more is SHIFT_OVER_WIDTH (R441). -/
def helperShl (a b : Word) : Word :=
  if b.toNat < 64 then a <<< b.toNat else Config.shiftOverWidth .shl a b

/-- `shr(a, b)`, logical; an amount of 64 or more is SHIFT_OVER_WIDTH (R441). -/
def helperShr (a b : Word) : Word :=
  if b.toNat < 64 then a >>> b.toNat else Config.shiftOverWidth .shr a b

/-- `asr(a, b)`; an amount of 64 or more is SHIFT_OVER_WIDTH (R442). -/
def helperAsr (a b : Word) : Word :=
  if b.toNat < 64 then a.sshiftRight b.toNat else Config.shiftOverWidth .asr a b

/-- `bit(a, b)`: bit b of a as 0 or 1; an index of 64 or more is BIT_INDEX_OVER_WIDTH (R443). -/
def helperBit (a b : Word) : Word :=
  if b.toNat < 64 then (if a.getLsbD b.toNat then 1 else 0) else Config.bitIndexOverWidth a b

end Sys2Proof.Machine
end

