-- ==== Sys2Proof/Machine/Operands.lean ====
section
/-! DEFINITION. Operands: the stack and frame pointer, the immediates as 64-bit operands, the effective address of the
loads and stores, branch and call targets, and the stack accesses (spec 30_encoding.md R108, R109; the Meaning lines of
41_control_flow.md, 42_stack.md, 44_load_store.md, 45_compare.md, 46_alu.md). -/
namespace Sys2Proof.Machine

/-- The general register that is the stack pointer: a parameter (N7; log 4). -/
def spReg : RegId := Config.spReg

/-- The general register that is the frame pointer: a parameter (N7; log 4). -/
def fpReg : RegId := Config.fpReg

/-- A raw immediate extended to 64 bits in one of the two ways the decoder supplies (R109). -/
def extendImm {n : Nat} (e : ImmExt) (imm : BitVec n) : Word :=
  match e with
  | .zero => uimm imm
  | .sign => simm imm

/-- The second operand of an immediate form; the extension is ALU_IMM_EXT (R350, D13; log 7). -/
def aluImm (op : AluOp) (imm : BitVec 16) : Word := extendImm (Config.aluImmExt op) imm

/-- The immediate operand of `cmpi`; the extension is open (R342; log 7). -/
def cmpImm (imm : BitVec 16) : Word := extendImm Config.cmpImmExt imm

/-- The effective address `x[rs1] + simm_E + (x[rs2] << func)`, modulo 2^64 (R310; log 10). -/
def State.effAddr (s : State) (rs1 rs2 : RegId) (func : Nibble) (imm : BitVec 8) : Word :=
  s.reg rs1 + simm imm + s.reg rs2 <<< func.toNat

/-- The branch target `pc + 4 * simm_B`, from the branch's own address (R236; 95_test_vectors.md Part 3; log 8). -/
def State.branchTarget (s : State) (imm : BitVec 20) : Word := s.pc + 4 * simm imm

/-- The call target `x[rs1] + 4 * simm_M` (R231, R232; log 8). -/
def State.callTarget (s : State) (rs1 : RegId) (imm : BitVec 16) : Word := s.reg rs1 + 4 * simm imm

/-- `sp <- sp - 8`, modulo 2^64: below 8 it wraps, with no fault (R271; N10; log 9). -/
def State.lowerSp (s : State) : State := s.setReg spReg (s.reg spReg - 8)

/-- The address a push stores to: the stack pointer less 8 (R271). -/
def State.pushAddr (s : State) : Word := s.reg spReg - 8

/-- `sp <- sp - 8; MemWrite(sp, 8, v)` (R271; log 9). -/
def State.pushWord (s : State) (v : Word) : State := s.lowerSp.memWrite s.pushAddr 8 v

/-- Push a register: it is read after the stack pointer is lowered, in the order of the Meaning line (R271; log 9). -/
def State.pushReg (s : State) (r : RegId) : State := s.pushWord (s.lowerSp.reg r)

/-- `MemRead(sp, 8)`: the word at the top of the stack (R272). -/
def State.topWord (s : State) : Word := s.memRead (s.reg spReg) 8

/-- `sp <- sp + 8`, modulo 2^64: at the top it wraps, with no fault (R272; N10; log 9). -/
def State.raiseSp (s : State) : State := s.setReg spReg (s.reg spReg + 8)

/-- `x[r] <- MemRead(sp, 8); sp <- sp + 8`, in that order (R272; log 9). -/
def State.popReg (s : State) (r : RegId) : State := (s.setReg r s.topWord).raiseSp

end Sys2Proof.Machine
end

