-- ==== Sys2Proof/Machine/Alu.lean ====
section
/-! DEFINITION. Alu: the meanings of the arithmetic and bitwise instructions over the helper layer (spec 46_alu.md R350 to
R382; 48_helper_arith.md). Operands are `x[rs1]` and `x[rs2]` or the extended immediate. No flag is written: the helper's
overflow flags go nowhere in the spec (log 6). -/
namespace Sys2Proof.Machine

/-- A result goes to a register. -/
def State.aluTo (s : State) (rde : RegId) (v : Word) : State := (s.setReg rde v).advance

/-- The result of a divide helper goes to a register; an absent one is an arithmetic failure (R444; log 18). -/
def State.divTo (s : State) (op : DivOp) (a b : Word) (r : Option Word) (rde : RegId) : State :=
  match r with
  | some v => s.aluTo rde v
  | none => s.arithFail op a b rde

/-- `addr`: `x[rde] <- add(x[rs1], x[rs2], carry = false)` (R351). -/
def execAddr (rde rs1 rs2 : RegId) (s : State) : StepResult :=
  .next (s.aluTo rde ((helperAdd (s.reg rs1) (s.reg rs2) false).result))

/-- `addi`: `x[rde] <- add(x[rs1], imm, carry = false)` (R352). -/
def execAddi (rde rs1 : RegId) (imm : BitVec 16) (s : State) : StepResult :=
  .next (s.aluTo rde ((helperAdd (s.reg rs1) (aluImm .add imm) false).result))

/-- `subr`: `x[rde] <- sub(x[rs1], x[rs2], carry = false)` (R353). -/
def execSubr (rde rs1 rs2 : RegId) (s : State) : StepResult :=
  .next (s.aluTo rde ((helperSub (s.reg rs1) (s.reg rs2) false).result))

/-- `subi`: `x[rde] <- sub(x[rs1], imm, carry = false)` (R354). -/
def execSubi (rde rs1 : RegId) (imm : BitVec 16) (s : State) : StepResult :=
  .next (s.aluTo rde ((helperSub (s.reg rs1) (aluImm .sub imm) false).result))

/-- `imulr`: `x[rde] <- imul(x[rs1], x[rs2])` (R355). -/
def execImulr (rde rs1 rs2 : RegId) (s : State) : StepResult :=
  .next (s.aluTo rde (helperImul (s.reg rs1) (s.reg rs2)))

/-- `imuli`: `x[rde] <- imul(x[rs1], imm)` (R356). -/
def execImuli (rde rs1 : RegId) (imm : BitVec 16) (s : State) : StepResult :=
  .next (s.aluTo rde (helperImul (s.reg rs1) (aluImm .imul imm)))

/-- `idivr`: `x[rde] <- idiv(x[rs1], x[rs2])` (R357). -/
def execIdivr (rde rs1 rs2 : RegId) (s : State) : StepResult :=
  .next (s.divTo .idiv (s.reg rs1) (s.reg rs2) (helperIdiv (s.reg rs1) (s.reg rs2)) rde)

/-- `idivi`: `x[rde] <- idiv(x[rs1], imm)` (R358). -/
def execIdivi (rde rs1 : RegId) (imm : BitVec 16) (s : State) : StepResult :=
  .next (s.divTo .idiv (s.reg rs1) (aluImm .idiv imm) (helperIdiv (s.reg rs1) (aluImm .idiv imm)) rde)

/-- `umulr`: `x[rde] <- umul(x[rs1], x[rs2])` (R359). -/
def execUmulr (rde rs1 rs2 : RegId) (s : State) : StepResult :=
  .next (s.aluTo rde (helperUmul (s.reg rs1) (s.reg rs2)))

/-- `umuli`: `x[rde] <- umul(x[rs1], imm)` (R360). -/
def execUmuli (rde rs1 : RegId) (imm : BitVec 16) (s : State) : StepResult :=
  .next (s.aluTo rde (helperUmul (s.reg rs1) (aluImm .umul imm)))

/-- `udivr`: `x[rde] <- udiv(x[rs1], x[rs2])` (R361). -/
def execUdivr (rde rs1 rs2 : RegId) (s : State) : StepResult :=
  .next (s.divTo .udiv (s.reg rs1) (s.reg rs2) (helperUdiv (s.reg rs1) (s.reg rs2)) rde)

/-- `udivi`: `x[rde] <- udiv(x[rs1], imm)` (R362). -/
def execUdivi (rde rs1 : RegId) (imm : BitVec 16) (s : State) : StepResult :=
  .next (s.divTo .udiv (s.reg rs1) (aluImm .udiv imm) (helperUdiv (s.reg rs1) (aluImm .udiv imm)) rde)

/-- `remr`: `x[rde] <- rem(x[rs1], x[rs2])` (R363). -/
def execRemr (rde rs1 rs2 : RegId) (s : State) : StepResult :=
  .next (s.divTo .rem (s.reg rs1) (s.reg rs2) (helperRem (s.reg rs1) (s.reg rs2)) rde)

/-- `remi`: `x[rde] <- rem(x[rs1], imm)` (R364). -/
def execRemi (rde rs1 : RegId) (imm : BitVec 16) (s : State) : StepResult :=
  .next (s.divTo .rem (s.reg rs1) (aluImm .rem imm) (helperRem (s.reg rs1) (aluImm .rem imm)) rde)

/-- `modr`: `x[rde] <- mod(x[rs1], x[rs2])` (R365). -/
def execModr (rde rs1 rs2 : RegId) (s : State) : StepResult :=
  .next (s.divTo .mod (s.reg rs1) (s.reg rs2) (helperMod (s.reg rs1) (s.reg rs2)) rde)

/-- `modi`: `x[rde] <- mod(x[rs1], imm)` (R366). -/
def execModi (rde rs1 : RegId) (imm : BitVec 16) (s : State) : StepResult :=
  .next (s.divTo .mod (s.reg rs1) (aluImm .mod imm) (helperMod (s.reg rs1) (aluImm .mod imm)) rde)

/-- `andr`: `x[rde] <- and(x[rs1], x[rs2])` (R367). -/
def execAndr (rde rs1 rs2 : RegId) (s : State) : StepResult := .next (s.aluTo rde ((s.reg rs1) &&& (s.reg rs2)))

/-- `andi`: `x[rde] <- and(x[rs1], imm)` (R368). -/
def execAndi (rde rs1 : RegId) (imm : BitVec 16) (s : State) : StepResult :=
  .next (s.aluTo rde ((s.reg rs1) &&& (aluImm .and imm)))

/-- `orr`: `x[rde] <- or(x[rs1], x[rs2])` (R369). -/
def execOrr (rde rs1 rs2 : RegId) (s : State) : StepResult := .next (s.aluTo rde ((s.reg rs1) ||| (s.reg rs2)))

/-- `ori`: `x[rde] <- or(x[rs1], imm)` (R370). -/
def execOri (rde rs1 : RegId) (imm : BitVec 16) (s : State) : StepResult :=
  .next (s.aluTo rde ((s.reg rs1) ||| (aluImm .or imm)))

/-- `norr`: `x[rde] <- nor(x[rs1], x[rs2])` (R371). -/
def execNorr (rde rs1 rs2 : RegId) (s : State) : StepResult := .next (s.aluTo rde (helperNor (s.reg rs1) (s.reg rs2)))

/-- `nori`: `x[rde] <- nor(x[rs1], imm)` (R372). -/
def execNori (rde rs1 : RegId) (imm : BitVec 16) (s : State) : StepResult :=
  .next (s.aluTo rde (helperNor (s.reg rs1) (aluImm .nor imm)))

/-- `xorr`: `x[rde] <- xor(x[rs1], x[rs2])` (R373). -/
def execXorr (rde rs1 rs2 : RegId) (s : State) : StepResult := .next (s.aluTo rde ((s.reg rs1) ^^^ (s.reg rs2)))

/-- `xori`: `x[rde] <- xor(x[rs1], imm)` (R374). -/
def execXori (rde rs1 : RegId) (imm : BitVec 16) (s : State) : StepResult :=
  .next (s.aluTo rde ((s.reg rs1) ^^^ (aluImm .xor imm)))

/-- `shlr`: `x[rde] <- shl(x[rs1], x[rs2])` (R375). -/
def execShlr (rde rs1 rs2 : RegId) (s : State) : StepResult := .next (s.aluTo rde (helperShl (s.reg rs1) (s.reg rs2)))

/-- `shli`: `x[rde] <- shl(x[rs1], imm)` (R376). -/
def execShli (rde rs1 : RegId) (imm : BitVec 16) (s : State) : StepResult :=
  .next (s.aluTo rde (helperShl (s.reg rs1) (aluImm .shl imm)))

/-- `asrr`: `x[rde] <- asr(x[rs1], x[rs2])` (R377). -/
def execAsrr (rde rs1 rs2 : RegId) (s : State) : StepResult := .next (s.aluTo rde (helperAsr (s.reg rs1) (s.reg rs2)))

/-- `asri`: `x[rde] <- asr(x[rs1], imm)` (R378). -/
def execAsri (rde rs1 : RegId) (imm : BitVec 16) (s : State) : StepResult :=
  .next (s.aluTo rde (helperAsr (s.reg rs1) (aluImm .asr imm)))

/-- `lsrr`: `x[rde] <- shr(x[rs1], x[rs2])` (R379). -/
def execLsrr (rde rs1 rs2 : RegId) (s : State) : StepResult := .next (s.aluTo rde (helperShr (s.reg rs1) (s.reg rs2)))

/-- `lsri`: `x[rde] <- shr(x[rs1], imm)` (R380). -/
def execLsri (rde rs1 : RegId) (imm : BitVec 16) (s : State) : StepResult :=
  .next (s.aluTo rde (helperShr (s.reg rs1) (aluImm .lsr imm)))

/-- `bitr`: `x[rde] <- bit(x[rs1], x[rs2])` (R381). -/
def execBitr (rde rs1 rs2 : RegId) (s : State) : StepResult := .next (s.aluTo rde (helperBit (s.reg rs1) (s.reg rs2)))

/-- `biti`: `x[rde] <- bit(x[rs1], imm)` (R382). -/
def execBiti (rde rs1 : RegId) (imm : BitVec 16) (s : State) : StepResult :=
  .next (s.aluTo rde (helperBit (s.reg rs1) (aluImm .bit imm)))

end Sys2Proof.Machine
end

