-- ==== Sys2Proof/Machine/Flags.lean ====
section
/-! DEFINITION. Flags: what a compare sets and what each branch condition tests (spec 10_state.md R42; 30_encoding.md
R122; 45_compare.md; log 6). The flags of a float compare are in Machine/FloatNum.lean. -/
namespace Sys2Proof.Machine

/-- The flags from comparing `a` with `b`: equal, less than signed, less than unsigned (R122, R341); the zero flag is
open (N30). -/
def compareFlags (a b : Word) : Flags :=
  { eq := a == b, zero := Config.compareZero a b, lt := a.slt b, ltu := a.ult b }

/-- Whether a branch condition holds on the flags; codes 9 to E are the negations of 1 to 6 (R122). -/
def condHolds (c : BranchCond) (f : Flags) : Bool :=
  match c with
  | .always => true
  | .eq => f.eq
  | .ez => f.zero
  | .lt => f.lt
  | .le => f.lt || f.eq
  | .ltu => f.ltu
  | .leu => f.ltu || f.eq
  | .ne => !f.eq
  | .nz => !f.zero
  | .ge => !f.lt
  | .gt => !(f.lt || f.eq)
  | .geu => !f.ltu
  | .gtu => !(f.ltu || f.eq)

end Sys2Proof.Machine
end

