-- ==== Sys2Proof/Machine/Compare.lean ====
section
/-! DEFINITION. Compare: the meanings of the compare instructions (spec 45_compare.md R340 to R342; log 6). -/
namespace Sys2Proof.Machine

/-- The flags that `cmpi` sets: the register with the immediate, or the immediate with the register (R125, R342). -/
def cmpImmFlags (order : CompareOrder) (x imm : Word) : Flags :=
  match order with
  | .registerFirst => compareFlags x imm
  | .immediateFirst => compareFlags imm x

/-- `cmpr`: the flags are set from comparing `x[rde]` with `x[rs1]` (R341). -/
def execCmpr (rde rs1 : RegId) (s : State) : StepResult :=
  .next (s.setFlags (compareFlags (s.reg rde) (s.reg rs1))).advance

/-- `cmpi`: the flags are set from comparing `x[rde]` with the immediate (order 0), or the immediate with `x[rde]`
(order 1) (R342). -/
def execCmpi (order : CompareOrder) (rde : RegId) (imm : BitVec 16) (s : State) : StepResult :=
  .next (s.setFlags (cmpImmFlags order (s.reg rde) (cmpImm imm))).advance

end Sys2Proof.Machine
end

