-- ==== Sys2Proof/Machine/ControlFlow.lean ====
section
/-! DEFINITION. ControlFlow: the meanings of the call, return and branch instructions (spec 41_control_flow.md R230 to
R248; 30_encoding.md R122). The return address is the address of the next instruction (log 8). -/
namespace Sys2Proof.Machine

/-- `pc <- pc + 4 * simm_B` if the condition holds, else the next instruction (R236 to R248; log 8). -/
def State.branchIf (s : State) (c : BranchCond) (imm : BitVec 20) : State :=
  if condHolds c s.flags then s.setPc (s.branchTarget imm) else s.advance

/-- Push the return address (R231): an 8-byte push of the address of the next instruction. -/
def State.pushReturn (s : State) : State := s.pushWord s.nextPc

/-- `jal`: the return address is pushed, then `pc <- x[rs1] + 4 * simm_M`; `x[rs1]` is read after the push (R231). -/
def execJal (rs1 : RegId) (imm : BitVec 16) (s : State) : StepResult :=
  .next (s.pushReturn.setPc (s.pushReturn.callTarget rs1 imm))

/-- `jalr`: `x[rde] <-` return address, then `pc <- x[rs1] + 4 * simm_M`; `x[rs1]` is read after the write (R232). -/
def execJalr (rde rs1 : RegId) (imm : BitVec 16) (s : State) : StepResult :=
  .next ((s.setReg rde s.nextPc).setPc ((s.setReg rde s.nextPc).callTarget rs1 imm))

/-- `ret`: the return address is popped into the program counter (R233). -/
def execRet (s : State) : StepResult := .next (s.raiseSp.setPc s.topWord)

/-- `retr`: `pc <- x[rs1]` (R234). -/
def execRetr (rs1 : RegId) (s : State) : StepResult := .next (s.setPc (s.reg rs1))

/-- `bra`: branch always (R236). -/
def execBra (imm : BitVec 20) (s : State) : StepResult := .next (s.branchIf .always imm)

/-- `beq`: branch if "equal" (R237). -/
def execBeq (imm : BitVec 20) (s : State) : StepResult := .next (s.branchIf .eq imm)

/-- `bez`: branch if "zero" (R238). -/
def execBez (imm : BitVec 20) (s : State) : StepResult := .next (s.branchIf .ez imm)

/-- `blt`: branch if "less than (signed)" (R239). -/
def execBlt (imm : BitVec 20) (s : State) : StepResult := .next (s.branchIf .lt imm)

/-- `ble`: branch if "less or equal (signed)" (R240). -/
def execBle (imm : BitVec 20) (s : State) : StepResult := .next (s.branchIf .le imm)

/-- `bltu`: branch if "less than (unsigned)" (R241). -/
def execBltu (imm : BitVec 20) (s : State) : StepResult := .next (s.branchIf .ltu imm)

/-- `bleu`: branch if "less or equal (unsigned)" (R242). -/
def execBleu (imm : BitVec 20) (s : State) : StepResult := .next (s.branchIf .leu imm)

/-- `bne`: branch if "not equal" (R243). -/
def execBne (imm : BitVec 20) (s : State) : StepResult := .next (s.branchIf .ne imm)

/-- `bnz`: branch if "not zero" (R244). -/
def execBnz (imm : BitVec 20) (s : State) : StepResult := .next (s.branchIf .nz imm)

/-- `bge`: branch if "greater or equal (signed)" (R245). -/
def execBge (imm : BitVec 20) (s : State) : StepResult := .next (s.branchIf .ge imm)

/-- `bgt`: branch if "greater than (signed)" (R246). -/
def execBgt (imm : BitVec 20) (s : State) : StepResult := .next (s.branchIf .gt imm)

/-- `bgeu`: branch if "greater or equal (unsigned)" (R247). -/
def execBgeu (imm : BitVec 20) (s : State) : StepResult := .next (s.branchIf .geu imm)

/-- `bgtu`: branch if "greater than (unsigned)" (R248). -/
def execBgtu (imm : BitVec 20) (s : State) : StepResult := .next (s.branchIf .gtu imm)

end Sys2Proof.Machine
end

