-- ==== Sys2Proof/Machine/FloatNum.lean ====
section
/-! DEFINITION. FloatNum: the float operation layer (spec 49_helper_float.md R460 to R468). A pattern is decoded to an
exact value (NaN, a signed infinity, or sign, magnitude and exponent), the operation is computed exactly on it, and the
result is rounded once. What FLOAT_NUMERICS leaves open (rounding direction, NaN payload, subnormals, min and max of
NaN or zeros, one or two roundings of fma, the integer type of casts, the containers that tests return) are constants of
Config; logs 20 to 27 and 36. No operation raises an IEEE exception flag: the model holds none (R465, N20; log 35). -/
namespace Sys2Proof

/-- The number of fraction bits of a precision: binary16, binary32, binary64 (R461). -/
def FloatPrec.fracBits : FloatPrec → Nat
  | .half => 10 | .single => 23 | .double => 52

/-- The number of exponent bits of a precision (R461). -/
def FloatPrec.expBits : FloatPrec → Nat
  | .half => 5 | .single => 8 | .double => 11

/-- The number of bits of a precision's pattern (R461). -/
abbrev FloatPrec.width : FloatPrec → Nat
  | .half => 16 | .single => 32 | .double => 64

/-- The exponent field of infinities and NaNs. -/
def FloatPrec.expMax (p : FloatPrec) : Nat := 2 ^ p.expBits - 1

/-- The exponent of the least subnormal: the weight of the last fraction bit of subnormals. -/
def FloatPrec.ulpMin (p : FloatPrec) : Int := 2 - 2 ^ (p.expBits - 1) - p.fracBits

namespace Machine

/-! ### Patterns (R461) -/

/-- The pattern of a precision in the low bits of a container: `access_uN<0>(c)` (R461). -/
def floatOperand (p : FloatPrec) (c : Word) : BitVec p.width := c.extractLsb' 0 p.width

/-- A result pattern in the low bits of a container: `write_uN<0>`, into the destination's old value or into zero as
FLOAT_UPPER_BITS says (R461, D32; log 20). -/
def placeFloat (p : FloatPrec) (old : Word) (pat : BitVec p.width) : Word :=
  match Config.floatUpperBits with
  | .preserve => overwrite 0 p.width old pat
  | .zero => overwrite 0 p.width 0 pat

/-- The pattern of a sign and a magnitude (exponent and fraction fields together). -/
def floatPattern (p : FloatPrec) (neg : Bool) (mag : Nat) : BitVec p.width :=
  BitVec.ofNat p.width ((if neg then 2 ^ (p.width - 1) else 0) + mag)

/-- The sign bit of a pattern: what the sign-bit test asks (R460). -/
def floatNegative (p : FloatPrec) (b : BitVec p.width) : Bool := b.msb

/-- The fraction field of a pattern. -/
def floatFrac (p : FloatPrec) (b : BitVec p.width) : Nat := b.toNat % 2 ^ p.fracBits

/-- The exponent field of a pattern. -/
def floatExp (p : FloatPrec) (b : BitVec p.width) : Nat := b.toNat / 2 ^ p.fracBits % 2 ^ p.expBits

/-- The NaN test (R463). -/
def floatIsNan (p : FloatPrec) (b : BitVec p.width) : Bool :=
  floatExp p b == p.expMax && floatFrac p b != 0

/-- A zero of either sign: what the exact-zero test asks (R460). -/
def floatIsZero (p : FloatPrec) (b : BitVec p.width) : Bool := floatExp p b == 0 && floatFrac p b == 0

/-- A subnormal pattern. -/
def floatIsSubnormal (p : FloatPrec) (b : BitVec p.width) : Bool := floatExp p b == 0 && floatFrac p b != 0

/-- The magnitude of the infinities. -/
def infMagnitude (p : FloatPrec) : Nat := p.expMax * 2 ^ p.fracBits

/-- A NaN pattern with the sign and payload of the given bits; a zero payload is read as 1, so that it is a NaN. -/
def nanPattern (p : FloatPrec) (bits : Word) : BitVec p.width :=
  let f := bits.toNat % 2 ^ p.fracBits
  floatPattern p bits.msb (infMagnitude p + if f = 0 then 1 else f)

/-- A subnormal operand as the operation reads it (FLOAT_NUMERICS; log 21). -/
def flushOperand (op : FloatOp) (p : FloatPrec) (b : BitVec p.width) : BitVec p.width :=
  if floatIsSubnormal p b && Config.flushesOperands op p then floatPattern p (floatNegative p b) 0 else b

/-- A subnormal result as the operation writes it (FLOAT_NUMERICS; log 21). Smallness is judged after rounding, on the
pattern itself: an exact value below the normal numbers that rounds to the smallest of them stays, and a replaced result
keeps its sign (D25 and N20 leave both open; log 21, DESIGN CHOICE). -/
def flushResult (op : FloatOp) (p : FloatPrec) (b : BitVec p.width) : BitVec p.width :=
  if floatIsSubnormal p b && Config.flushesResults op p then floatPattern p (floatNegative p b) 0 else b

/-! ### Exact values -/

/-- An exact value: NaN, an infinity, or (-1)^neg * mant * 2^exp. -/
inductive FloatVal
  | nan
  | inf (neg : Bool)
  | fin (neg : Bool) (mant : Nat) (exp : Int)
  deriving DecidableEq, Repr

/-- The value of an IEEE pattern (R461). -/
def floatValue (p : FloatPrec) (b : BitVec p.width) : FloatVal :=
  if floatExp p b = p.expMax then
    if floatFrac p b = 0 then .inf (floatNegative p b) else .nan
  else if floatExp p b = 0 then .fin (floatNegative p b) (floatFrac p b) p.ulpMin
  else .fin (floatNegative p b) (2 ^ p.fracBits + floatFrac p b) (p.ulpMin + (floatExp p b - 1 : Nat))

/-- A magnitude with a sign, as an integer. -/
def signedMag (neg : Bool) (m : Nat) : Int := if neg then -(m : Int) else m

/-- The integer that a finite value is at the exponent `e`, which is at most its own. -/
def scaledTo (e : Int) (neg : Bool) (mant : Nat) (exp : Int) : Int := signedMag neg (mant * 2 ^ (exp - e).toNat)

/-! ### Rounding -/

/-- The floor of the base-2 logarithm of n / d, for n and d above 0. -/
def floorLog2 (n d : Nat) : Int :=
  let k : Int := (n.log2 : Int) - d.log2
  if d * 2 ^ k.toNat ≤ n * 2 ^ (-k).toNat then k else k - 1

/-- Whether the quotient q with remainder r of a division by `den` is rounded up in magnitude. -/
def roundsUp (mode : RoundingMode) (neg : Bool) (q r den : Nat) : Bool :=
  match mode with
  | .nearestEven => decide (den < 2 * r) || (decide (2 * r = den) && decide (q % 2 = 1))
  | .nearestAway => decide (den ≤ 2 * r)
  | .towardZero => false
  | .towardPositive => decide (r ≠ 0) && !neg
  | .towardNegative => decide (r ≠ 0) && neg

/-- The magnitude a result too large for the precision rounds to: infinity or the largest finite magnitude. -/
def overflowMagnitude (p : FloatPrec) (mode : RoundingMode) (neg : Bool) : Nat :=
  match mode with
  | .nearestEven => infMagnitude p
  | .nearestAway => infMagnitude p
  | .towardZero => infMagnitude p - 1
  | .towardPositive => if neg then infMagnitude p - 1 else infMagnitude p
  | .towardNegative => if neg then infMagnitude p else infMagnitude p - 1

/-- The exponent of the last place in which n / d * 2^e is rounded: that of its own binade, or of the subnormals. -/
def roundExp (p : FloatPrec) (n d : Nat) (e : Int) : Int := max (floorLog2 n d + e - p.fracBits) p.ulpMin

/-- The magnitude of n / d * 2^e rounded to a precision, with n and d above 0: the places above the subnormals' exponent
count in the exponent field, and a carry out of the fraction moves into it by itself. -/
def roundNonzero (p : FloatPrec) (mode : RoundingMode) (neg : Bool) (n d : Nat) (e : Int) : Nat :=
  let t := roundExp p n d e
  let num := n * 2 ^ (e - t).toNat
  let den := d * 2 ^ (t - e).toNat
  let q := num / den
  let q' := if roundsUp mode neg q (num % den) den then q + 1 else q
  let mag := (t - p.ulpMin).toNat * 2 ^ p.fracBits + q'
  if mag < infMagnitude p then mag else overflowMagnitude p mode neg

/-- The pattern of (-1)^neg * n / d * 2^e rounded to a precision. -/
def roundQuotient (p : FloatPrec) (mode : RoundingMode) (neg : Bool) (n d : Nat) (e : Int) : BitVec p.width :=
  floatPattern p neg (if n = 0 then 0 else roundNonzero p mode neg n d e)

/-- The pattern of an exact value rounded to a precision; a NaN has the given bits. -/
def roundValue (p : FloatPrec) (mode : RoundingMode) (nan : Word) (v : FloatVal) : BitVec p.width :=
  match v with
  | .nan => nanPattern p nan
  | .inf neg => floatPattern p neg (infMagnitude p)
  | .fin neg mant exp => roundQuotient p mode neg mant 1 exp

/-! ### Exact operations -/

/-- The exact sum. A zero sum of values of one sign keeps it; any other zero sum is +0, or -0 when rounding toward
negative (IEEE 754; log 21). -/
def addValues (mode : RoundingMode) (x y : FloatVal) : FloatVal :=
  match x, y with
  | .nan, _ => .nan
  | .inf _, .nan => .nan
  | .fin _ _ _, .nan => .nan
  | .inf s, .inf t => if s = t then .inf s else .nan
  | .inf s, .fin _ _ _ => .inf s
  | .fin _ _ _, .inf t => .inf t
  | .fin s m e, .fin t n f =>
    let g := min e f
    let sum := scaledTo g s m e + scaledTo g t n f
    if sum = 0 then .fin (if s = t then s else decide (mode = .towardNegative)) 0 g
    else .fin (decide (sum < 0)) sum.natAbs g

/-- The value of opposite sign. -/
def negValue (x : FloatVal) : FloatVal :=
  match x with
  | .nan => .nan
  | .inf s => .inf !s
  | .fin s m e => .fin (!s) m e

/-- The exact product; infinity times zero is a NaN. -/
def mulValues (x y : FloatVal) : FloatVal :=
  match x, y with
  | .nan, _ => .nan
  | .inf _, .nan => .nan
  | .fin _ _ _, .nan => .nan
  | .inf s, .inf t => .inf (s ^^ t)
  | .inf s, .fin t n _ => if n = 0 then .nan else .inf (s ^^ t)
  | .fin s m _, .inf t => if m = 0 then .nan else .inf (s ^^ t)
  | .fin s m e, .fin t n f => .fin (s ^^ t) (m * n) (e + f)

/-- The integer square root, bit by bit from bit k - 1 down. -/
def isqrtFrom (k n acc : Nat) : Nat :=
  match k with
  | 0 => acc
  | j + 1 => if (acc + 2 ^ j) * (acc + 2 ^ j) ≤ n then isqrtFrom j n (acc + 2 ^ j) else isqrtFrom j n acc

/-- The floor of the square root. -/
def isqrt (n : Nat) : Nat := isqrtFrom (n.log2 / 2 + 1) n 0

/-- The square root of a value, to more places than a precision has and with a last bit that says whether it is
inexact, so that rounding it rounds the exact root. The root of a negative number is a NaN, of a zero that zero. -/
def sqrtValue (p : FloatPrec) (x : FloatVal) : FloatVal :=
  match x with
  | .nan => .nan
  | .inf neg => if neg then .nan else .inf false
  | .fin neg m e =>
    if m = 0 then .fin neg 0 e
    else if neg then .nan
    else
      let k := 2 * (p.fracBits + 4) + (e % 2).toNat
      let n := m * 2 ^ k
      let r := isqrt n
      .fin false (2 * r + if r * r = n then 0 else 1) ((e - k) / 2 - 1)

/-- Equality of values: a NaN equals nothing, the two zeros are equal. -/
def eqValues (x y : FloatVal) : Bool :=
  match x, y with
  | .nan, _ => false
  | .inf _, .nan => false
  | .fin _ _ _, .nan => false
  | .inf s, .inf t => s == t
  | .inf _, .fin _ _ _ => false
  | .fin _ _ _, .inf _ => false
  | .fin s m e, .fin t n f => decide (scaledTo (min e f) s m e = scaledTo (min e f) t n f)

/-- Less-than of values: false when one is a NaN. -/
def ltValues (x y : FloatVal) : Bool :=
  match x, y with
  | .nan, _ => false
  | .inf _, .nan => false
  | .fin _ _ _, .nan => false
  | .inf s, .inf t => s && !t
  | .inf s, .fin _ _ _ => s
  | .fin _ _ _, .inf t => !t
  | .fin s m e, .fin t n f => decide (scaledTo (min e f) s m e < scaledTo (min e f) t n f)

/-- The integer part of a finite value toward zero; infinities and NaN have none. -/
def truncValue (x : FloatVal) : Option Int :=
  match x with
  | .nan => none
  | .inf _ => none
  | .fin neg m e => some (signedMag neg (m * 2 ^ e.toNat / 2 ^ (-e).toNat))

/-- The smallest integral value that is not below a value; `zeroNeg` is the sign of a zero that a negative value rounds
up to (R467; log 26). -/
def ceilValue (zeroNeg : Bool) (x : FloatVal) : FloatVal :=
  match x with
  | .nan => .nan
  | .inf neg => .inf neg
  | .fin neg m e =>
    let den := 2 ^ (-e).toNat
    if m % den = 0 then .fin neg m e
    else if neg then (if m / den = 0 then .fin zeroNeg 0 0 else .fin true (m / den) 0)
    else .fin false (m / den + 1) 0

/-! ### The operations at a precision, pattern to pattern (R460, R465 to R468) -/

/-- A pattern as a 64-bit argument of the constants of Config. -/
def patWord (p : FloatPrec) (b : BitVec p.width) : Word := b.setWidth 64

/-- The value of an operand as an operation reads it. -/
def opValue (op : FloatOp) (p : FloatPrec) (b : BitVec p.width) : FloatVal := floatValue p (flushOperand op p b)

/-- An exact value as the result of an operation: rounded, and then a subnormal result as the operation writes it, so that
smallness is judged after rounding (log 21, DESIGN CHOICE). -/
def opResult (op : FloatOp) (p : FloatPrec) (nan : Word) (v : FloatVal) : BitVec p.width :=
  flushResult op p (roundValue p (Config.rounding op p) nan v)

/-- Negate (R404, R465): the sign bit flips; a NaN gives a NaN. -/
def floatNeg (p : FloatPrec) (a : BitVec p.width) : BitVec p.width :=
  let b := flushOperand .fneg p a
  if floatIsNan p b then nanPattern p (Config.nanBits .fneg p (patWord p a) 0 0)
  else b ^^^ floatPattern p true 0

/-- Absolute value (R405, R465): the sign bit is cleared; a NaN gives a NaN. -/
def floatAbs (p : FloatPrec) (a : BitVec p.width) : BitVec p.width :=
  let b := flushOperand .fabs p a
  if floatIsNan p b then nanPattern p (Config.nanBits .fabs p (patWord p a) 0 0)
  else b &&& ~~~(floatPattern p true 0)

/-- Add (R406, R465). -/
def floatAdd (p : FloatPrec) (a b : BitVec p.width) : BitVec p.width :=
  opResult .fadd p (Config.nanBits .fadd p (patWord p a) (patWord p b) 0)
    (addValues (Config.rounding .fadd p) (opValue .fadd p a) (opValue .fadd p b))

/-- Subtract (R407, R465): the exact sum with the second operand negated. -/
def floatSub (p : FloatPrec) (a b : BitVec p.width) : BitVec p.width :=
  opResult .fsub p (Config.nanBits .fsub p (patWord p a) (patWord p b) 0)
    (addValues (Config.rounding .fsub p) (opValue .fsub p a) (negValue (opValue .fsub p b)))

/-- Multiply (R408, R465). -/
def floatMul (p : FloatPrec) (a b : BitVec p.width) : BitVec p.width :=
  opResult .fmul p (Config.nanBits .fmul p (patWord p a) (patWord p b) 0)
    (mulValues (opValue .fmul p a) (opValue .fmul p b))

/-- Divide (R409, R465): a finite quotient is rounded once from the exact fraction; a non-zero number over a zero is an
infinity, zero over zero and infinity over infinity a NaN. -/
def floatDiv (p : FloatPrec) (a b : BitVec p.width) : BitVec p.width :=
  let nan := nanPattern p (Config.nanBits .fdiv p (patWord p a) (patWord p b) 0)
  match opValue .fdiv p a, opValue .fdiv p b with
  | .nan, _ => nan
  | .inf _, .nan => nan
  | .fin _ _ _, .nan => nan
  | .inf _, .inf _ => nan
  | .inf s, .fin t _ _ => floatPattern p (s ^^ t) (infMagnitude p)
  | .fin s _ _, .inf t => floatPattern p (s ^^ t) 0
  | .fin s m e, .fin t n f =>
    if n = 0 then
      if m = 0 then nan else floatPattern p (s ^^ t) (infMagnitude p)
    else flushResult .fdiv p (roundQuotient p (Config.rounding .fdiv p) (s ^^ t) m n (e - f))

/-- Fused multiply-add, `dest + a * b` (R410, R466): rounded once, or the product and then the sum, as FLOAT_NUMERICS
says; a product rounded by itself is flushed as a result and then as an operand (log 24, DESIGN CHOICE). -/
def floatFma (p : FloatPrec) (dest a b : BitVec p.width) : BitVec p.width :=
  let nan := Config.nanBits .fma p (patWord p dest) (patWord p a) (patWord p b)
  let product := mulValues (opValue .fma p a) (opValue .fma p b)
  let addend := if Config.fmaRoundsOnce p then product else opValue .fma p (opResult .fma p nan product)
  opResult .fma p nan (addValues (Config.rounding .fma p) (opValue .fma p dest) addend)

/-- Square root (R411, R465). -/
def floatSqrt (p : FloatPrec) (a : BitVec p.width) : BitVec p.width :=
  opResult .fsqrt p (Config.nanBits .fsqrt p (patWord p a) 0 0) (sqrtValue p (opValue .fsqrt p a))

/-- Minimum or maximum: `takeFirst x y` says that the first of two different numbers is the answer. With a NaN, and with
two zeros of opposite sign, FLOAT_NUMERICS decides (R412, R413, R465; log 23). -/
def floatSelect (op : FloatOp) (takeFirst : FloatVal → FloatVal → Bool) (p : FloatPrec) (a b : BitVec p.width) :
    BitVec p.width :=
  let x := flushOperand op p a
  let y := flushOperand op p b
  if floatIsNan p x || floatIsNan p y then floatOperand p (Config.minMaxNan op p (patWord p a) (patWord p b))
  else if floatIsZero p x && floatIsZero p y then
    if Config.minMaxFirstZero op p (patWord p a) (patWord p b) then x else y
  else flushResult op p (if takeFirst (floatValue p x) (floatValue p y) then x else y)

/-- Minimum (R412, R465). -/
def floatMin (p : FloatPrec) (a b : BitVec p.width) : BitVec p.width := floatSelect .fmin ltValues p a b

/-- Maximum (R413, R465). -/
def floatMax (p : FloatPrec) (a b : BitVec p.width) : BitVec p.width :=
  floatSelect .fmax (fun x y => ltValues y x) p a b

/-- Round up, that is ceiling, not saturation (R414, R467; conflict C6). -/
def floatCeil (p : FloatPrec) (a : BitVec p.width) : BitVec p.width :=
  opResult .fsat p (Config.nanBits .fsat p (patWord p a) 0 0)
    (ceilValue (Config.ceilZeroSign p (patWord p a)) (opValue .fsat p a))

/-- The cross-precision cast (R415, R468): the identity when the precisions match; otherwise the value rounded to the
other precision, a NaN giving a NaN. Subnormals are kept (R468's round trip; log 27). A zero and an infinity
keep their signs, and a value too large is rounded as an operation's result is (log 27). -/
def floatCast (f t : FloatPrec) (a : BitVec f.width) : BitVec t.width :=
  if f = t then a.setWidth t.width
  else roundValue t (Config.rounding .fcnv t) (Config.nanBits .fcnv t (patWord f a) 0 0) (floatValue f a)

/-! ### The tests (R460, R463): what each asks of containers, and the container it returns -/

/-- The question of the equality test at a precision (R401, R460). -/
def floatEquals (p : FloatPrec) (x y : Word) : Bool :=
  eqValues (opValue .fcmp p (floatOperand p x)) (opValue .fcmp p (floatOperand p y))

/-- The question of the less-than test at a precision (R401, R460). -/
def floatLess (p : FloatPrec) (x y : Word) : Bool :=
  ltValues (opValue .fcmp p (floatOperand p x)) (opValue .fcmp p (floatOperand p y))

/-- The equality test, from containers to a container; how its answer is encoded is open (R463; log 36). -/
def floatEqualTest (p : FloatPrec) (x y : Word) : Word := Config.testResult .equal p (floatEquals p x y)

/-- The less-than test, from containers to a container; how its answer is encoded is open (R463; log 36). -/
def floatLessTest (p : FloatPrec) (x y : Word) : Word := Config.testResult .less p (floatLess p x y)

/-- The sign-bit test, from a container to a container; how its answer is encoded is open (R463; log 36). -/
def floatSignTest (p : FloatPrec) (x : Word) : Word :=
  Config.testResult .signBit p (floatNegative p (floatOperand p x))

/-- The answer of the exact-zero test: true for the two zeros. Whether it reads a subnormal as a zero is open, and is a
parameter of its own: it need not agree with what the equality test reads (R463; N20, U11; log 36, DESIGN CHOICE). -/
def floatReadsZero (p : FloatPrec) (a : BitVec p.width) : Bool :=
  floatIsZero p a || (floatIsSubnormal p a && Config.zeroTestFlushes p)

/-- The exact-zero test, from a container to a container; how its answer is encoded, and its reading of a subnormal, are
open (R463; log 36). -/
def floatZeroTest (p : FloatPrec) (x : Word) : Word :=
  Config.testResult .exactZero p (floatReadsZero p (floatOperand p x))

/-- The NaN test as "1/0" (R416, R463). -/
def floatNanTest (p : FloatPrec) (a : BitVec p.width) : Word := if floatIsNan p a then 1 else 0

/-- The flags of a float compare: equality and less-than at the precision (R401, R460); the zero and the unsigned flag
are open (N30; log 6). -/
def floatCompareFlags (p : FloatPrec) (x y : Word) : Flags :=
  { eq := floatEquals p x y, zero := Config.floatCompareZero p x y, lt := floatLess p x y,
    ltu := Config.floatCompareLtu p x y }

/-! ### Integer casts (R402, R403, R464; log 25) -/

/-- The number of bits of an integer width. -/
def intBits : IntWidth → Nat
  | .w8 => 8 | .w16 => 16 | .w32 => 32 | .w64 => 64

/-- Whether an integer is a value of the integer type. -/
def castInRange (c : CastInt) (v : Int) : Bool :=
  if c.signed then decide (-2 ^ (intBits c.width - 1) ≤ v) && decide (v < 2 ^ (intBits c.width - 1))
  else decide (0 ≤ v) && decide (v < 2 ^ intBits c.width)

/-- The integer that a container holds in an integer type: its low bits, read as signed or unsigned. -/
def castOperand (c : CastInt) (x : Word) : Int :=
  let low := x.extractLsb' 0 (intBits c.width)
  if c.signed then low.toInt else low.toNat

/-- Float to integer: truncating toward zero; "out-of-range or NaN casts yield 0" (R402, R464). The integer is
transported as its 64-bit pattern (R430). -/
def floatToInt (p : FloatPrec) (a : BitVec p.width) : Word :=
  match truncValue (opValue .fto p a) with
  | none => 0
  | some v => if castInRange (Config.castInt p) v then BitVec.ofInt 64 v else 0

/-- Integer to float (R403, R464). The integer 0 gives +0: two patterns have the value 0, and which of them the cast gives
is open (R464, D27; log 25, DESIGN CHOICE). An integer that the precision does not have is rounded as an operation's
result is (log 25). -/
def floatFromInt (p : FloatPrec) (x : Word) : BitVec p.width :=
  let v := castOperand (Config.castInt p) x
  opResult .ffrom p 0 (.fin (decide (v < 0)) v.natAbs 0)

end Machine

end Sys2Proof
end

