-- ==== Sys2Proof/Machine/Float.lean ====
section
/-! DEFINITION. Float: the meanings of the floating-point instructions over the float layer (spec 47_float.md R400 to R416;
49_helper_float.md). A float operand is the low bits of a general register; a float result goes to the low bits of one
(R461; log 20). -/
namespace Sys2Proof.Machine

/-- The pattern of a precision in a general register (R461). -/
def State.floatReg (s : State) (p : FloatPrec) (r : RegId) : BitVec p.width := floatOperand p (s.reg r)

/-- A result pattern goes to a general register (R461, D32), and nowhere else: no IEEE exception flag (inexact,
overflow, underflow, invalid, division by zero) is kept or raised, which is the model's choice (R465, N20; log 35). -/
def State.floatTo (s : State) (p : FloatPrec) (rde : RegId) (pat : BitVec p.width) : State :=
  (s.setReg rde (placeFloat p (s.reg rde) pat)).advance

/-- The flags are set from a float compare (R401). -/
def State.floatCompare (s : State) (p : FloatPrec) (rde rs1 : RegId) : State :=
  (s.setFlags (floatCompareFlags p (s.reg rde) (s.reg rs1))).advance

/-- `fcmp.f16`: the flags are set from comparing `x[rde]` with `x[rs1]` at half precision (R401). -/
def execFcmpF16 (rde rs1 : RegId) (s : State) : StepResult := .next (s.floatCompare .half rde rs1)

/-- `fcmp.f32`: the flags are set from comparing `x[rde]` with `x[rs1]` at single precision (R401). -/
def execFcmpF32 (rde rs1 : RegId) (s : State) : StepResult := .next (s.floatCompare .single rde rs1)

/-- `fcmp.f64`: the flags are set from comparing `x[rde]` with `x[rs1]` at double precision (R401). -/
def execFcmpF64 (rde rs1 : RegId) (s : State) : StepResult := .next (s.floatCompare .double rde rs1)

/-- `fto.f16`: `x[rde] <-` float to integer cast of `x[rs1]` at half precision (R402). -/
def execFtoF16 (rde rs1 : RegId) (s : State) : StepResult :=
  .next (s.setReg rde (floatToInt .half (s.floatReg .half rs1))).advance

/-- `fto.f32`: `x[rde] <-` float to integer cast of `x[rs1]` at single precision (R402). -/
def execFtoF32 (rde rs1 : RegId) (s : State) : StepResult :=
  .next (s.setReg rde (floatToInt .single (s.floatReg .single rs1))).advance

/-- `fto.f64`: `x[rde] <-` float to integer cast of `x[rs1]` at double precision (R402). -/
def execFtoF64 (rde rs1 : RegId) (s : State) : StepResult :=
  .next (s.setReg rde (floatToInt .double (s.floatReg .double rs1))).advance

/-- `ffrom.f16`: `x[rde] <-` integer to float cast of `x[rs1]` to half precision (R403). -/
def execFfromF16 (rde rs1 : RegId) (s : State) : StepResult :=
  .next (s.floatTo .half rde (floatFromInt .half (s.reg rs1)))

/-- `ffrom.f32`: `x[rde] <-` integer to float cast of `x[rs1]` to single precision (R403). -/
def execFfromF32 (rde rs1 : RegId) (s : State) : StepResult :=
  .next (s.floatTo .single rde (floatFromInt .single (s.reg rs1)))

/-- `ffrom.f64`: `x[rde] <-` integer to float cast of `x[rs1]` to double precision (R403). -/
def execFfromF64 (rde rs1 : RegId) (s : State) : StepResult :=
  .next (s.floatTo .double rde (floatFromInt .double (s.reg rs1)))

/-- `fneg.f16`: `x[rde] <- neg_p(x[rs1])` at half precision (R404). -/
def execFnegF16 (rde rs1 : RegId) (s : State) : StepResult :=
  .next (s.floatTo .half rde (floatNeg .half (s.floatReg .half rs1)))

/-- `fneg.f32`: `x[rde] <- neg_p(x[rs1])` at single precision (R404). -/
def execFnegF32 (rde rs1 : RegId) (s : State) : StepResult :=
  .next (s.floatTo .single rde (floatNeg .single (s.floatReg .single rs1)))

/-- `fneg.f64`: `x[rde] <- neg_p(x[rs1])` at double precision (R404). -/
def execFnegF64 (rde rs1 : RegId) (s : State) : StepResult :=
  .next (s.floatTo .double rde (floatNeg .double (s.floatReg .double rs1)))

/-- `fabs.f16`: `x[rde] <- abs_p(x[rs1])` at half precision (R405). -/
def execFabsF16 (rde rs1 : RegId) (s : State) : StepResult :=
  .next (s.floatTo .half rde (floatAbs .half (s.floatReg .half rs1)))

/-- `fabs.f32`: `x[rde] <- abs_p(x[rs1])` at single precision (R405). -/
def execFabsF32 (rde rs1 : RegId) (s : State) : StepResult :=
  .next (s.floatTo .single rde (floatAbs .single (s.floatReg .single rs1)))

/-- `fabs.f64`: `x[rde] <- abs_p(x[rs1])` at double precision (R405). -/
def execFabsF64 (rde rs1 : RegId) (s : State) : StepResult :=
  .next (s.floatTo .double rde (floatAbs .double (s.floatReg .double rs1)))

/-- `fadd.f16`: `x[rde] <- add_p(x[rs1], x[rs2])` at half precision (R406). -/
def execFaddF16 (rde rs1 rs2 : RegId) (s : State) : StepResult :=
  .next (s.floatTo .half rde (floatAdd .half (s.floatReg .half rs1) (s.floatReg .half rs2)))

/-- `fadd.f32`: `x[rde] <- add_p(x[rs1], x[rs2])` at single precision (R406). -/
def execFaddF32 (rde rs1 rs2 : RegId) (s : State) : StepResult :=
  .next (s.floatTo .single rde (floatAdd .single (s.floatReg .single rs1) (s.floatReg .single rs2)))

/-- `fadd.f64`: `x[rde] <- add_p(x[rs1], x[rs2])` at double precision (R406). -/
def execFaddF64 (rde rs1 rs2 : RegId) (s : State) : StepResult :=
  .next (s.floatTo .double rde (floatAdd .double (s.floatReg .double rs1) (s.floatReg .double rs2)))

/-- `fsub.f16`: `x[rde] <- sub_p(x[rs1], x[rs2])` at half precision (R407). -/
def execFsubF16 (rde rs1 rs2 : RegId) (s : State) : StepResult :=
  .next (s.floatTo .half rde (floatSub .half (s.floatReg .half rs1) (s.floatReg .half rs2)))

/-- `fsub.f32`: `x[rde] <- sub_p(x[rs1], x[rs2])` at single precision (R407). -/
def execFsubF32 (rde rs1 rs2 : RegId) (s : State) : StepResult :=
  .next (s.floatTo .single rde (floatSub .single (s.floatReg .single rs1) (s.floatReg .single rs2)))

/-- `fsub.f64`: `x[rde] <- sub_p(x[rs1], x[rs2])` at double precision (R407). -/
def execFsubF64 (rde rs1 rs2 : RegId) (s : State) : StepResult :=
  .next (s.floatTo .double rde (floatSub .double (s.floatReg .double rs1) (s.floatReg .double rs2)))

/-- `fmul.f16`: `x[rde] <- mul_p(x[rs1], x[rs2])` at half precision (R408). -/
def execFmulF16 (rde rs1 rs2 : RegId) (s : State) : StepResult :=
  .next (s.floatTo .half rde (floatMul .half (s.floatReg .half rs1) (s.floatReg .half rs2)))

/-- `fmul.f32`: `x[rde] <- mul_p(x[rs1], x[rs2])` at single precision (R408). -/
def execFmulF32 (rde rs1 rs2 : RegId) (s : State) : StepResult :=
  .next (s.floatTo .single rde (floatMul .single (s.floatReg .single rs1) (s.floatReg .single rs2)))

/-- `fmul.f64`: `x[rde] <- mul_p(x[rs1], x[rs2])` at double precision (R408). -/
def execFmulF64 (rde rs1 rs2 : RegId) (s : State) : StepResult :=
  .next (s.floatTo .double rde (floatMul .double (s.floatReg .double rs1) (s.floatReg .double rs2)))

/-- `fdiv.f16`: `x[rde] <- div_p(x[rs1], x[rs2])` at half precision (R409). -/
def execFdivF16 (rde rs1 rs2 : RegId) (s : State) : StepResult :=
  .next (s.floatTo .half rde (floatDiv .half (s.floatReg .half rs1) (s.floatReg .half rs2)))

/-- `fdiv.f32`: `x[rde] <- div_p(x[rs1], x[rs2])` at single precision (R409). -/
def execFdivF32 (rde rs1 rs2 : RegId) (s : State) : StepResult :=
  .next (s.floatTo .single rde (floatDiv .single (s.floatReg .single rs1) (s.floatReg .single rs2)))

/-- `fdiv.f64`: `x[rde] <- div_p(x[rs1], x[rs2])` at double precision (R409). -/
def execFdivF64 (rde rs1 rs2 : RegId) (s : State) : StepResult :=
  .next (s.floatTo .double rde (floatDiv .double (s.floatReg .double rs1) (s.floatReg .double rs2)))

/-- `fma.f16`: `x[rde] <- x[rde] + x[rs1] * x[rs2]` at half precision, in place (R410). -/
def execFmaF16 (rde rs1 rs2 : RegId) (s : State) : StepResult :=
  .next (s.floatTo .half rde (floatFma .half (s.floatReg .half rde) (s.floatReg .half rs1) (s.floatReg .half rs2)))

/-- `fma.f32`: `x[rde] <- x[rde] + x[rs1] * x[rs2]` at single precision, in place (R410). -/
def execFmaF32 (rde rs1 rs2 : RegId) (s : State) : StepResult :=
  .next (s.floatTo .single rde (floatFma .single (s.floatReg .single rde) (s.floatReg .single rs1) (s.floatReg .single rs2)))

/-- `fma.f64`: `x[rde] <- x[rde] + x[rs1] * x[rs2]` at double precision, in place (R410). -/
def execFmaF64 (rde rs1 rs2 : RegId) (s : State) : StepResult :=
  .next (s.floatTo .double rde (floatFma .double (s.floatReg .double rde) (s.floatReg .double rs1) (s.floatReg .double rs2)))

/-- `fsqrt.f16`: `x[rde] <- sqrt_p(x[rs1])` at half precision (R411). -/
def execFsqrtF16 (rde rs1 : RegId) (s : State) : StepResult :=
  .next (s.floatTo .half rde (floatSqrt .half (s.floatReg .half rs1)))

/-- `fsqrt.f32`: `x[rde] <- sqrt_p(x[rs1])` at single precision (R411). -/
def execFsqrtF32 (rde rs1 : RegId) (s : State) : StepResult :=
  .next (s.floatTo .single rde (floatSqrt .single (s.floatReg .single rs1)))

/-- `fsqrt.f64`: `x[rde] <- sqrt_p(x[rs1])` at double precision (R411). -/
def execFsqrtF64 (rde rs1 : RegId) (s : State) : StepResult :=
  .next (s.floatTo .double rde (floatSqrt .double (s.floatReg .double rs1)))

/-- `fmin.f16`: `x[rde] <- min_p(x[rs1], x[rs2])` at half precision (R412). -/
def execFminF16 (rde rs1 rs2 : RegId) (s : State) : StepResult :=
  .next (s.floatTo .half rde (floatMin .half (s.floatReg .half rs1) (s.floatReg .half rs2)))

/-- `fmin.f32`: `x[rde] <- min_p(x[rs1], x[rs2])` at single precision (R412). -/
def execFminF32 (rde rs1 rs2 : RegId) (s : State) : StepResult :=
  .next (s.floatTo .single rde (floatMin .single (s.floatReg .single rs1) (s.floatReg .single rs2)))

/-- `fmin.f64`: `x[rde] <- min_p(x[rs1], x[rs2])` at double precision (R412). -/
def execFminF64 (rde rs1 rs2 : RegId) (s : State) : StepResult :=
  .next (s.floatTo .double rde (floatMin .double (s.floatReg .double rs1) (s.floatReg .double rs2)))

/-- `fmax.f16`: `x[rde] <- max_p(x[rs1], x[rs2])` at half precision (R413). -/
def execFmaxF16 (rde rs1 rs2 : RegId) (s : State) : StepResult :=
  .next (s.floatTo .half rde (floatMax .half (s.floatReg .half rs1) (s.floatReg .half rs2)))

/-- `fmax.f32`: `x[rde] <- max_p(x[rs1], x[rs2])` at single precision (R413). -/
def execFmaxF32 (rde rs1 rs2 : RegId) (s : State) : StepResult :=
  .next (s.floatTo .single rde (floatMax .single (s.floatReg .single rs1) (s.floatReg .single rs2)))

/-- `fmax.f64`: `x[rde] <- max_p(x[rs1], x[rs2])` at double precision (R413). -/
def execFmaxF64 (rde rs1 rs2 : RegId) (s : State) : StepResult :=
  .next (s.floatTo .double rde (floatMax .double (s.floatReg .double rs1) (s.floatReg .double rs2)))

/-- `fsat.f16`: `x[rde] <- ceil_p(x[rs1])` at half precision; ceiling, not saturation (R414). -/
def execFsatF16 (rde rs1 : RegId) (s : State) : StepResult :=
  .next (s.floatTo .half rde (floatCeil .half (s.floatReg .half rs1)))

/-- `fsat.f32`: `x[rde] <- ceil_p(x[rs1])` at single precision; ceiling, not saturation (R414). -/
def execFsatF32 (rde rs1 : RegId) (s : State) : StepResult :=
  .next (s.floatTo .single rde (floatCeil .single (s.floatReg .single rs1)))

/-- `fsat.f64`: `x[rde] <- ceil_p(x[rs1])` at double precision; ceiling, not saturation (R414). -/
def execFsatF64 (rde rs1 : RegId) (s : State) : StepResult :=
  .next (s.floatTo .double rde (floatCeil .double (s.floatReg .double rs1)))

/-- `fcnv.f16_to_f16`: `x[rde] <- x[rs1]` converted from half to half precision (R415). -/
def execFcnvF16F16 (rde rs1 : RegId) (s : State) : StepResult :=
  .next (s.floatTo .half rde (floatCast .half .half (s.floatReg .half rs1)))

/-- `fcnv.f16_to_f32`: `x[rde] <- x[rs1]` converted from half to single precision (R415). -/
def execFcnvF16F32 (rde rs1 : RegId) (s : State) : StepResult :=
  .next (s.floatTo .single rde (floatCast .half .single (s.floatReg .half rs1)))

/-- `fcnv.f16_to_f64`: `x[rde] <- x[rs1]` converted from half to double precision (R415). -/
def execFcnvF16F64 (rde rs1 : RegId) (s : State) : StepResult :=
  .next (s.floatTo .double rde (floatCast .half .double (s.floatReg .half rs1)))

/-- `fcnv.f32_to_f16`: `x[rde] <- x[rs1]` converted from single to half precision (R415). -/
def execFcnvF32F16 (rde rs1 : RegId) (s : State) : StepResult :=
  .next (s.floatTo .half rde (floatCast .single .half (s.floatReg .single rs1)))

/-- `fcnv.f32_to_f32`: `x[rde] <- x[rs1]` converted from single to single precision (R415). -/
def execFcnvF32F32 (rde rs1 : RegId) (s : State) : StepResult :=
  .next (s.floatTo .single rde (floatCast .single .single (s.floatReg .single rs1)))

/-- `fcnv.f32_to_f64`: `x[rde] <- x[rs1]` converted from single to double precision (R415). -/
def execFcnvF32F64 (rde rs1 : RegId) (s : State) : StepResult :=
  .next (s.floatTo .double rde (floatCast .single .double (s.floatReg .single rs1)))

/-- `fcnv.f64_to_f16`: `x[rde] <- x[rs1]` converted from double to half precision (R415). -/
def execFcnvF64F16 (rde rs1 : RegId) (s : State) : StepResult :=
  .next (s.floatTo .half rde (floatCast .double .half (s.floatReg .double rs1)))

/-- `fcnv.f64_to_f32`: `x[rde] <- x[rs1]` converted from double to single precision (R415). -/
def execFcnvF64F32 (rde rs1 : RegId) (s : State) : StepResult :=
  .next (s.floatTo .single rde (floatCast .double .single (s.floatReg .double rs1)))

/-- `fcnv.f64_to_f64`: `x[rde] <- x[rs1]` converted from double to double precision (R415). -/
def execFcnvF64F64 (rde rs1 : RegId) (s : State) : StepResult :=
  .next (s.floatTo .double rde (floatCast .double .double (s.floatReg .double rs1)))

/-- `fnan.f16`: `x[rde] <- 1` if `x[rs1]` is a NaN at half precision, else `0` (R416). -/
def execFnanF16 (rde rs1 : RegId) (s : State) : StepResult :=
  .next (s.setReg rde (floatNanTest .half (s.floatReg .half rs1))).advance

/-- `fnan.f32`: `x[rde] <- 1` if `x[rs1]` is a NaN at single precision, else `0` (R416). -/
def execFnanF32 (rde rs1 : RegId) (s : State) : StepResult :=
  .next (s.setReg rde (floatNanTest .single (s.floatReg .single rs1))).advance

/-- `fnan.f64`: `x[rde] <- 1` if `x[rs1]` is a NaN at double precision, else `0` (R416). -/
def execFnanF64 (rde rs1 : RegId) (s : State) : StepResult :=
  .next (s.setReg rde (floatNanTest .double (s.floatReg .double rs1))).advance

end Sys2Proof.Machine
end

