-- ==== Sys2Proof/Machine/LoadImm.lean ====
section
/-! DEFINITION. LoadImm: the meanings of the load-immediate instructions (spec 43_load_immediate.md R290 to R298). -/
namespace Sys2Proof.Machine

/-- `x[rde] <- write_u16<k>(x[rde], imm)`: the 16 bits of slice k change (R291, R293, R295, R297). -/
def State.loadImmPlain (s : State) (rde : RegId) (k : Nat) (imm : BitVec 16) : State :=
  (s.setReg rde (overwrite (16 * k) 16 (s.reg rde) imm)).advance

/-- `x[rde] <- sext_n(zext_64(imm) << 16k)` with n = 16(k + 1): slice k receives imm, the bits below become 0 and the
bits above copy its top bit (R292, R294, R296, R298). -/
def State.loadImmSigned (s : State) (rde : RegId) (k : Nat) (imm : BitVec 16) : State :=
  (s.setReg rde (sext (16 * (k + 1)) (uimm imm <<< (16 * k)))).advance

/-- `lli`: `x[rde] <- write_u16<0>(x[rde], imm)` (R291). -/
def execLli (rde : RegId) (imm : BitVec 16) (s : State) : StepResult := .next (s.loadImmPlain rde 0 imm)

/-- `llis`: `x[rde] <- sext_16(zext_64(imm))` (R292). -/
def execLlis (rde : RegId) (imm : BitVec 16) (s : State) : StepResult := .next (s.loadImmSigned rde 0 imm)

/-- `lui`: `x[rde] <- write_u16<1>(x[rde], imm)` (R293). -/
def execLui (rde : RegId) (imm : BitVec 16) (s : State) : StepResult := .next (s.loadImmPlain rde 1 imm)

/-- `luis`: `x[rde] <- sext_32(zext_64(imm) << 16)` (R294). -/
def execLuis (rde : RegId) (imm : BitVec 16) (s : State) : StepResult := .next (s.loadImmSigned rde 1 imm)

/-- `lti`: `x[rde] <- write_u16<2>(x[rde], imm)` (R295). -/
def execLti (rde : RegId) (imm : BitVec 16) (s : State) : StepResult := .next (s.loadImmPlain rde 2 imm)

/-- `ltis`: `x[rde] <- sext_48(zext_64(imm) << 32)` (R296). -/
def execLtis (rde : RegId) (imm : BitVec 16) (s : State) : StepResult := .next (s.loadImmSigned rde 2 imm)

/-- `ltui`: `x[rde] <- write_u16<3>(x[rde], imm)` (R297). -/
def execLtui (rde : RegId) (imm : BitVec 16) (s : State) : StepResult := .next (s.loadImmPlain rde 3 imm)

/-- `ltuis`: `x[rde] <- sext_64(zext_64(imm) << 48)` (R298). -/
def execLtuis (rde : RegId) (imm : BitVec 16) (s : State) : StepResult := .next (s.loadImmSigned rde 3 imm)

end Sys2Proof.Machine
end

