-- ==== Sys2Proof/Machine/LoadStore.lean ====
section
/-! DEFINITION. LoadStore: the meanings of the indexed loads and stores (spec 44_load_store.md R310 to R321; 20_memory.md
R57; log 10). Here `ea` is the effective address `x[rs1] + simm_E + (x[rs2] << func)`. -/
namespace Sys2Proof.Machine

/-- A loaded value goes to a register. -/
def State.loadTo (s : State) (rde : RegId) (v : Word) : State := (s.setReg rde v).advance

/-- `lw`: `x[rde] <- MemRead(ea, 8)` (R311). -/
def execLw (rde rs1 rs2 : RegId) (func : Nibble) (imm : BitVec 8) (s : State) : StepResult :=
  .next (s.loadTo rde (s.memRead (s.effAddr rs1 rs2 func imm) 8))

/-- `lh`: `x[rde] <- zext_64(MemRead(ea, 4))` (R312). -/
def execLh (rde rs1 rs2 : RegId) (func : Nibble) (imm : BitVec 8) (s : State) : StepResult :=
  .next (s.loadTo rde (s.memRead (s.effAddr rs1 rs2 func imm) 4))

/-- `lhs`: `x[rde] <- sext_64(MemRead(ea, 4))`, the sign bit being that of the 4-byte datum (R313). -/
def execLhs (rde rs1 rs2 : RegId) (func : Nibble) (imm : BitVec 8) (s : State) : StepResult :=
  .next (s.loadTo rde (sext 32 (s.memRead (s.effAddr rs1 rs2 func imm) 4)))

/-- `lq`: `x[rde] <- zext_64(MemRead(ea, 2))` (R314). -/
def execLq (rde rs1 rs2 : RegId) (func : Nibble) (imm : BitVec 8) (s : State) : StepResult :=
  .next (s.loadTo rde (s.memRead (s.effAddr rs1 rs2 func imm) 2))

/-- `lqs`: `x[rde] <- sext_64(MemRead(ea, 2))`, the sign bit being that of the 2-byte datum (R315). -/
def execLqs (rde rs1 rs2 : RegId) (func : Nibble) (imm : BitVec 8) (s : State) : StepResult :=
  .next (s.loadTo rde (sext 16 (s.memRead (s.effAddr rs1 rs2 func imm) 2)))

/-- `lb`: `x[rde] <- zext_64(MemRead(ea, 1))` (R316). -/
def execLb (rde rs1 rs2 : RegId) (func : Nibble) (imm : BitVec 8) (s : State) : StepResult :=
  .next (s.loadTo rde (s.memRead (s.effAddr rs1 rs2 func imm) 1))

/-- `lbs`: `x[rde] <- sext_64(MemRead(ea, 1))`, the sign bit being that of the 1-byte datum (R317). -/
def execLbs (rde rs1 rs2 : RegId) (func : Nibble) (imm : BitVec 8) (s : State) : StepResult :=
  .next (s.loadTo rde (sext 8 (s.memRead (s.effAddr rs1 rs2 func imm) 1)))

/-- `sw`: `MemWrite(ea, 8, x[rde][63:0])` (R318). -/
def execSw (rde rs1 rs2 : RegId) (func : Nibble) (imm : BitVec 8) (s : State) : StepResult :=
  .next (s.memWrite (s.effAddr rs1 rs2 func imm) 8 (s.reg rde)).advance

/-- `sh`: `MemWrite(ea, 4, x[rde][31:0])` (R319). -/
def execSh (rde rs1 rs2 : RegId) (func : Nibble) (imm : BitVec 8) (s : State) : StepResult :=
  .next (s.memWrite (s.effAddr rs1 rs2 func imm) 4 (s.reg rde)).advance

/-- `sq`: `MemWrite(ea, 2, x[rde][15:0])` (R320). -/
def execSq (rde rs1 rs2 : RegId) (func : Nibble) (imm : BitVec 8) (s : State) : StepResult :=
  .next (s.memWrite (s.effAddr rs1 rs2 func imm) 2 (s.reg rde)).advance

/-- `sb`: `MemWrite(ea, 1, x[rde][7:0])` (R321). -/
def execSb (rde rs1 rs2 : RegId) (func : Nibble) (imm : BitVec 8) (s : State) : StepResult :=
  .next (s.memWrite (s.effAddr rs1 rs2 func imm) 1 (s.reg rde)).advance

end Sys2Proof.Machine
end

