-- ==== Sys2Proof/Machine/Stack.lean ====
section
/-! DEFINITION. Stack: the meanings of the stack instructions (spec 42_stack.md R270 to R274; logs 4, 9). -/
namespace Sys2Proof.Machine

/-- `push`: `sp <- sp - 8; MemWrite(sp, 8, x[rs1])` (R271). -/
def execPush (rs1 : RegId) (s : State) : StepResult := .next (s.pushReg rs1).advance

/-- `pop`: `x[rde] <- MemRead(sp, 8); sp <- sp + 8` (R272). -/
def execPop (rde : RegId) (s : State) : StepResult := .next (s.popReg rde).advance

/-- `enter`: push the frame pointer, then frame pointer `<-` sp (R273). -/
def execEnter (s : State) : StepResult :=
  .next (((s.pushReg fpReg).setReg fpReg ((s.pushReg fpReg).reg spReg)).advance)

/-- `leave`: sp `<-` frame pointer, then pop the frame pointer (R274). -/
def execLeave (s : State) : StepResult := .next (((s.setReg spReg (s.reg fpReg)).popReg fpReg).advance)

end Sys2Proof.Machine
end

