-- ==== Sys2Proof/Machine/SystemIo.lean ====
section
/-! DEFINITION. SystemIo: the meanings of the system-control and port instructions (spec 40_system_io.md R200 to R209).
One definition for each instruction; each is the whole meaning of its arm in Dispatch. -/
namespace Sys2Proof.Machine

/-- `int`: raise interrupt `intr` (R201). -/
def execInt (intr : IntId) (s : State) : StepResult := .next (s.takeTrap intr)

/-- `iret`: return from interrupt (R202). -/
def execIret (s : State) : StepResult := .next s.returnFromTrap

/-- `ires`: the interrupt controller is told that an interrupt is resolved; its effect there is outside the spec; log
16 (R203). -/
def execIres (s : State) : StepResult := .next (s.sendInt .resolved).advance

/-- `usr`: user mode is entered, at the address `x[rde]` (R204). -/
def execUsr (rde : RegId) (s : State) : StepResult := .next ((s.setMode .user).setPc (s.reg rde))

/-- `outr`: `x[rs1]` goes to port `x[rde][15:0]` (R206). -/
def execOutr (rde rs1 : RegId) (s : State) : StepResult :=
  .next (s.portWrite ((s.reg rde).extractLsb' 0 16) (s.reg rs1)).advance

/-- `outi`: `x[rs1]` goes to port `imm` (R207). -/
def execOuti (rs1 : RegId) (imm : Port) (s : State) : StepResult := .next (s.portWrite imm (s.reg rs1)).advance

/-- `inr`: `x[rde]` receives the value read from port `x[rs1][15:0]` (R208). -/
def execInr (rde rs1 : RegId) (s : State) : StepResult := .next (s.inputTo rde ((s.reg rs1).extractLsb' 0 16))

/-- `ini`: `x[rde]` receives the value read from port `imm` (R209). -/
def execIni (rde : RegId) (imm : Port) (s : State) : StepResult := .next (s.inputTo rde imm)

end Sys2Proof.Machine
end

