-- ==== Sys2Proof/Machine/Dispatch.lean ====
section
/-! DEFINITION. Dispatch: the meaning of each instruction, one arm for each constructor (spec 30_encoding.md R134). -/
namespace Sys2Proof.Machine

/-- What an instruction does to the machine. -/
def exec (i : Instr) (s : State) : Host.Outcome State Fault Refusal :=
  match i with
  -- System control (R200 to R204)
  | .int intr => Sys2Proof.Machine.execInt intr s
  | .iret => Sys2Proof.Machine.execIret s
  | .ires => Sys2Proof.Machine.execIres s
  | .usr rde => Sys2Proof.Machine.execUsr rde s
  -- Port I/O (R205 to R209)
  | .outr rde rs1 => Sys2Proof.Machine.execOutr rde rs1 s
  | .outi rs1 imm => Sys2Proof.Machine.execOuti rs1 imm s
  | .inr rde rs1 => Sys2Proof.Machine.execInr rde rs1 s
  | .ini rde imm => Sys2Proof.Machine.execIni rde imm s
  -- Control flow (R230 to R234)
  | .jal rs1 imm => Sys2Proof.Machine.execJal rs1 imm s
  | .jalr rde rs1 imm => Sys2Proof.Machine.execJalr rde rs1 imm s
  | .ret => Sys2Proof.Machine.execRet s
  | .retr rs1 => Sys2Proof.Machine.execRetr rs1 s
  -- Branch (R235 to R248)
  | .bra imm => Sys2Proof.Machine.execBra imm s
  | .beq imm => Sys2Proof.Machine.execBeq imm s
  | .bez imm => Sys2Proof.Machine.execBez imm s
  | .blt imm => Sys2Proof.Machine.execBlt imm s
  | .ble imm => Sys2Proof.Machine.execBle imm s
  | .bltu imm => Sys2Proof.Machine.execBltu imm s
  | .bleu imm => Sys2Proof.Machine.execBleu imm s
  | .bne imm => Sys2Proof.Machine.execBne imm s
  | .bnz imm => Sys2Proof.Machine.execBnz imm s
  | .bge imm => Sys2Proof.Machine.execBge imm s
  | .bgt imm => Sys2Proof.Machine.execBgt imm s
  | .bgeu imm => Sys2Proof.Machine.execBgeu imm s
  | .bgtu imm => Sys2Proof.Machine.execBgtu imm s
  -- Stack (R270 to R274)
  | .push rs1 => Sys2Proof.Machine.execPush rs1 s
  | .pop rde => Sys2Proof.Machine.execPop rde s
  | .enter => Sys2Proof.Machine.execEnter s
  | .leave => Sys2Proof.Machine.execLeave s
  -- Load immediate (R290 to R298)
  | .lli rde imm => Sys2Proof.Machine.execLli rde imm s
  | .llis rde imm => Sys2Proof.Machine.execLlis rde imm s
  | .lui rde imm => Sys2Proof.Machine.execLui rde imm s
  | .luis rde imm => Sys2Proof.Machine.execLuis rde imm s
  | .lti rde imm => Sys2Proof.Machine.execLti rde imm s
  | .ltis rde imm => Sys2Proof.Machine.execLtis rde imm s
  | .ltui rde imm => Sys2Proof.Machine.execLtui rde imm s
  | .ltuis rde imm => Sys2Proof.Machine.execLtuis rde imm s
  -- Indexed loads and stores (R310 to R321)
  | .lw rde rs1 rs2 func imm => Sys2Proof.Machine.execLw rde rs1 rs2 func imm s
  | .lh rde rs1 rs2 func imm => Sys2Proof.Machine.execLh rde rs1 rs2 func imm s
  | .lhs rde rs1 rs2 func imm => Sys2Proof.Machine.execLhs rde rs1 rs2 func imm s
  | .lq rde rs1 rs2 func imm => Sys2Proof.Machine.execLq rde rs1 rs2 func imm s
  | .lqs rde rs1 rs2 func imm => Sys2Proof.Machine.execLqs rde rs1 rs2 func imm s
  | .lb rde rs1 rs2 func imm => Sys2Proof.Machine.execLb rde rs1 rs2 func imm s
  | .lbs rde rs1 rs2 func imm => Sys2Proof.Machine.execLbs rde rs1 rs2 func imm s
  | .sw rde rs1 rs2 func imm => Sys2Proof.Machine.execSw rde rs1 rs2 func imm s
  | .sh rde rs1 rs2 func imm => Sys2Proof.Machine.execSh rde rs1 rs2 func imm s
  | .sq rde rs1 rs2 func imm => Sys2Proof.Machine.execSq rde rs1 rs2 func imm s
  | .sb rde rs1 rs2 func imm => Sys2Proof.Machine.execSb rde rs1 rs2 func imm s
  -- Compare (R340 to R342)
  | .cmpr rde rs1 => Sys2Proof.Machine.execCmpr rde rs1 s
  | .cmpi order rde imm => Sys2Proof.Machine.execCmpi order rde imm s
  -- Arithmetic and bitwise (R350 to R382)
  | .addr rde rs1 rs2 => Sys2Proof.Machine.execAddr rde rs1 rs2 s
  | .addi rde rs1 imm => Sys2Proof.Machine.execAddi rde rs1 imm s
  | .subr rde rs1 rs2 => Sys2Proof.Machine.execSubr rde rs1 rs2 s
  | .subi rde rs1 imm => Sys2Proof.Machine.execSubi rde rs1 imm s
  | .imulr rde rs1 rs2 => Sys2Proof.Machine.execImulr rde rs1 rs2 s
  | .imuli rde rs1 imm => Sys2Proof.Machine.execImuli rde rs1 imm s
  | .idivr rde rs1 rs2 => Sys2Proof.Machine.execIdivr rde rs1 rs2 s
  | .idivi rde rs1 imm => Sys2Proof.Machine.execIdivi rde rs1 imm s
  | .umulr rde rs1 rs2 => Sys2Proof.Machine.execUmulr rde rs1 rs2 s
  | .umuli rde rs1 imm => Sys2Proof.Machine.execUmuli rde rs1 imm s
  | .udivr rde rs1 rs2 => Sys2Proof.Machine.execUdivr rde rs1 rs2 s
  | .udivi rde rs1 imm => Sys2Proof.Machine.execUdivi rde rs1 imm s
  | .remr rde rs1 rs2 => Sys2Proof.Machine.execRemr rde rs1 rs2 s
  | .remi rde rs1 imm => Sys2Proof.Machine.execRemi rde rs1 imm s
  | .modr rde rs1 rs2 => Sys2Proof.Machine.execModr rde rs1 rs2 s
  | .modi rde rs1 imm => Sys2Proof.Machine.execModi rde rs1 imm s
  | .andr rde rs1 rs2 => Sys2Proof.Machine.execAndr rde rs1 rs2 s
  | .andi rde rs1 imm => Sys2Proof.Machine.execAndi rde rs1 imm s
  | .orr rde rs1 rs2 => Sys2Proof.Machine.execOrr rde rs1 rs2 s
  | .ori rde rs1 imm => Sys2Proof.Machine.execOri rde rs1 imm s
  | .norr rde rs1 rs2 => Sys2Proof.Machine.execNorr rde rs1 rs2 s
  | .nori rde rs1 imm => Sys2Proof.Machine.execNori rde rs1 imm s
  | .xorr rde rs1 rs2 => Sys2Proof.Machine.execXorr rde rs1 rs2 s
  | .xori rde rs1 imm => Sys2Proof.Machine.execXori rde rs1 imm s
  | .shlr rde rs1 rs2 => Sys2Proof.Machine.execShlr rde rs1 rs2 s
  | .shli rde rs1 imm => Sys2Proof.Machine.execShli rde rs1 imm s
  | .asrr rde rs1 rs2 => Sys2Proof.Machine.execAsrr rde rs1 rs2 s
  | .asri rde rs1 imm => Sys2Proof.Machine.execAsri rde rs1 imm s
  | .lsrr rde rs1 rs2 => Sys2Proof.Machine.execLsrr rde rs1 rs2 s
  | .lsri rde rs1 imm => Sys2Proof.Machine.execLsri rde rs1 imm s
  | .bitr rde rs1 rs2 => Sys2Proof.Machine.execBitr rde rs1 rs2 s
  | .biti rde rs1 imm => Sys2Proof.Machine.execBiti rde rs1 imm s
  -- Floating point (R400 to R416)
  | .fcmpF16 rde rs1 => Sys2Proof.Machine.execFcmpF16 rde rs1 s
  | .fcmpF32 rde rs1 => Sys2Proof.Machine.execFcmpF32 rde rs1 s
  | .fcmpF64 rde rs1 => Sys2Proof.Machine.execFcmpF64 rde rs1 s
  | .ftoF16 rde rs1 => Sys2Proof.Machine.execFtoF16 rde rs1 s
  | .ftoF32 rde rs1 => Sys2Proof.Machine.execFtoF32 rde rs1 s
  | .ftoF64 rde rs1 => Sys2Proof.Machine.execFtoF64 rde rs1 s
  | .ffromF16 rde rs1 => Sys2Proof.Machine.execFfromF16 rde rs1 s
  | .ffromF32 rde rs1 => Sys2Proof.Machine.execFfromF32 rde rs1 s
  | .ffromF64 rde rs1 => Sys2Proof.Machine.execFfromF64 rde rs1 s
  | .fnegF16 rde rs1 => Sys2Proof.Machine.execFnegF16 rde rs1 s
  | .fnegF32 rde rs1 => Sys2Proof.Machine.execFnegF32 rde rs1 s
  | .fnegF64 rde rs1 => Sys2Proof.Machine.execFnegF64 rde rs1 s
  | .fabsF16 rde rs1 => Sys2Proof.Machine.execFabsF16 rde rs1 s
  | .fabsF32 rde rs1 => Sys2Proof.Machine.execFabsF32 rde rs1 s
  | .fabsF64 rde rs1 => Sys2Proof.Machine.execFabsF64 rde rs1 s
  | .faddF16 rde rs1 rs2 => Sys2Proof.Machine.execFaddF16 rde rs1 rs2 s
  | .faddF32 rde rs1 rs2 => Sys2Proof.Machine.execFaddF32 rde rs1 rs2 s
  | .faddF64 rde rs1 rs2 => Sys2Proof.Machine.execFaddF64 rde rs1 rs2 s
  | .fsubF16 rde rs1 rs2 => Sys2Proof.Machine.execFsubF16 rde rs1 rs2 s
  | .fsubF32 rde rs1 rs2 => Sys2Proof.Machine.execFsubF32 rde rs1 rs2 s
  | .fsubF64 rde rs1 rs2 => Sys2Proof.Machine.execFsubF64 rde rs1 rs2 s
  | .fmulF16 rde rs1 rs2 => Sys2Proof.Machine.execFmulF16 rde rs1 rs2 s
  | .fmulF32 rde rs1 rs2 => Sys2Proof.Machine.execFmulF32 rde rs1 rs2 s
  | .fmulF64 rde rs1 rs2 => Sys2Proof.Machine.execFmulF64 rde rs1 rs2 s
  | .fdivF16 rde rs1 rs2 => Sys2Proof.Machine.execFdivF16 rde rs1 rs2 s
  | .fdivF32 rde rs1 rs2 => Sys2Proof.Machine.execFdivF32 rde rs1 rs2 s
  | .fdivF64 rde rs1 rs2 => Sys2Proof.Machine.execFdivF64 rde rs1 rs2 s
  | .fmaF16 rde rs1 rs2 => Sys2Proof.Machine.execFmaF16 rde rs1 rs2 s
  | .fmaF32 rde rs1 rs2 => Sys2Proof.Machine.execFmaF32 rde rs1 rs2 s
  | .fmaF64 rde rs1 rs2 => Sys2Proof.Machine.execFmaF64 rde rs1 rs2 s
  | .fsqrtF16 rde rs1 => Sys2Proof.Machine.execFsqrtF16 rde rs1 s
  | .fsqrtF32 rde rs1 => Sys2Proof.Machine.execFsqrtF32 rde rs1 s
  | .fsqrtF64 rde rs1 => Sys2Proof.Machine.execFsqrtF64 rde rs1 s
  | .fminF16 rde rs1 rs2 => Sys2Proof.Machine.execFminF16 rde rs1 rs2 s
  | .fminF32 rde rs1 rs2 => Sys2Proof.Machine.execFminF32 rde rs1 rs2 s
  | .fminF64 rde rs1 rs2 => Sys2Proof.Machine.execFminF64 rde rs1 rs2 s
  | .fmaxF16 rde rs1 rs2 => Sys2Proof.Machine.execFmaxF16 rde rs1 rs2 s
  | .fmaxF32 rde rs1 rs2 => Sys2Proof.Machine.execFmaxF32 rde rs1 rs2 s
  | .fmaxF64 rde rs1 rs2 => Sys2Proof.Machine.execFmaxF64 rde rs1 rs2 s
  | .fsatF16 rde rs1 => Sys2Proof.Machine.execFsatF16 rde rs1 s
  | .fsatF32 rde rs1 => Sys2Proof.Machine.execFsatF32 rde rs1 s
  | .fsatF64 rde rs1 => Sys2Proof.Machine.execFsatF64 rde rs1 s
  | .fcnvF16F16 rde rs1 => Sys2Proof.Machine.execFcnvF16F16 rde rs1 s
  | .fcnvF16F32 rde rs1 => Sys2Proof.Machine.execFcnvF16F32 rde rs1 s
  | .fcnvF16F64 rde rs1 => Sys2Proof.Machine.execFcnvF16F64 rde rs1 s
  | .fcnvF32F16 rde rs1 => Sys2Proof.Machine.execFcnvF32F16 rde rs1 s
  | .fcnvF32F32 rde rs1 => Sys2Proof.Machine.execFcnvF32F32 rde rs1 s
  | .fcnvF32F64 rde rs1 => Sys2Proof.Machine.execFcnvF32F64 rde rs1 s
  | .fcnvF64F16 rde rs1 => Sys2Proof.Machine.execFcnvF64F16 rde rs1 s
  | .fcnvF64F32 rde rs1 => Sys2Proof.Machine.execFcnvF64F32 rde rs1 s
  | .fcnvF64F64 rde rs1 => Sys2Proof.Machine.execFcnvF64F64 rde rs1 s
  | .fnanF16 rde rs1 => Sys2Proof.Machine.execFnanF16 rde rs1 s
  | .fnanF32 rde rs1 => Sys2Proof.Machine.execFnanF32 rde rs1 s
  | .fnanF64 rde rs1 => Sys2Proof.Machine.execFnanF64 rde rs1 s

end Sys2Proof.Machine
end

