-- ==== Sys2Proof/Machine/Step.lean ====
section
/-! DEFINITION. Step: fetch, decode, execute (spec 20_memory.md R50; 30_encoding.md R110; 60_exceptions.md R500), and
the placing of a word where the next step fetches it. -/
namespace Sys2Proof.Machine

/-- One step of the machine: the word at pc is decoded and its instruction executed; a decode failure is a fault
(R500, U5; log 29). -/
def step (s : State) : Host.Outcome State Fault Refusal :=
  match decode s.fetch with
  | .some i => exec i s
  | .none r => .fault (faultOf r)

/-- The state with an instruction word, the low `nbits` bits of `w`, stored where the next step fetches (log 5). -/
def State.withFetchWord (s : State) (nbits w : Nat) : State := s.placeWord (BitVec.ofNat 32 (w % 2 ^ nbits))

end Sys2Proof.Machine
end

