-- ==== Sys2Proof/Safety.lean ====
section
/-! DEFINITION. Safety: the terms in which statements speak of a step: what stays as it was, and the shapes an
instruction's effect has. Nothing here calls a meaning; each shape is an equation `exec i s = .next t` together with what
`t` holds. -/
namespace Sys2Proof.Machine

/-! ### What a step leaves alone -/

/-- Every register but the listed ones reads as before. -/
def SameRegsBut (rs : List RegId) (s t : State) : Prop := ∀ r : RegId, r ∉ rs → t.reg r = s.reg r

/-- Every byte of memory reads as before. -/
def SameMemory (s t : State) : Prop := ∀ a : Word, t.readByte a = s.readByte a

/-- Every byte of memory outside the `n` bytes from address `a` up reads as before. -/
def SameMemoryOutside (a : Word) (n : Nat) (s t : State) : Prop :=
  ∀ b : Word, (∀ k, k < n → b ≠ a + BitVec.ofNat 64 k) → t.readByte b = s.readByte b

/-- The interrupt commands, the port writes and the count of free values are as before. -/
def SameOutside (s t : State) : Prop := t.intCmds = s.intCmds ∧ t.portOuts = s.portOuts ∧ t.draws = s.draws

/-! ### The shapes of an instruction's effect -/

/-- The instruction completes with `v` in register `rde` and goes on with the next one; nothing else changes. -/
def WritesReg (i : Instr) (s : State) (rde : RegId) (v : Word) : Prop :=
  ∃ t, exec i s = .next t ∧ t.reg rde = v ∧ t.pc = s.pc + 4 ∧ SameRegsBut [rde] s t ∧ t.flags = s.flags ∧
    t.mode = s.mode ∧ SameMemory s t ∧ SameOutside s t

/-- The instruction completes with the flags `f` and goes on with the next one; nothing else changes. -/
def WritesFlags (i : Instr) (s : State) (f : Flags) : Prop :=
  ∃ t, exec i s = .next t ∧ t.flags = f ∧ t.pc = s.pc + 4 ∧ SameRegsBut [] s t ∧ t.mode = s.mode ∧ SameMemory s t ∧
    SameOutside s t

/-- The instruction completes with control at `target`; nothing else changes. -/
def JumpsTo (i : Instr) (s : State) (target : Word) : Prop :=
  ∃ t, exec i s = .next t ∧ t.pc = target ∧ SameRegsBut [] s t ∧ t.flags = s.flags ∧ t.mode = s.mode ∧
    SameMemory s t ∧ SameOutside s t

/-- The instruction completes by raising interrupt `id`: the interrupt controller is told, and control and mode are the
next free values (log 14); nothing else changes. -/
def RaisesInterrupt (i : Instr) (s : State) (id : IntId) : Prop :=
  ∃ t, exec i s = .next t ∧ t.intCmds = s.intCmds ++ [.raised id] ∧ t.pc = Config.trapTarget id s.draws ∧
    t.mode = Config.trapMode id s.draws ∧ t.draws = s.draws + 1 ∧ SameRegsBut [] s t ∧ t.flags = s.flags ∧
    SameMemory s t ∧ t.portOuts = s.portOuts

/-- Byte `k` of an `n`-byte datum in memory, in the machine's data byte order (log 11): byte k of the value from its
least significant end, or from its most significant end. -/
def datumByte (n : Nat) (v : Word) (k : Nat) : Byte :=
  match Config.dataOrder with
  | .little => v.extractLsb' (8 * k) 8
  | .big => v.extractLsb' (8 * (n - 1 - k)) 8

/-- The `n` bytes from address `a` up hold the low `n` bytes of `v`. -/
def HoldsDatum (t : State) (a : Word) (n : Nat) (v : Word) : Prop :=
  ∀ k, k < n → t.readByte (a + BitVec.ofNat 64 k) = datumByte n v k

/-- The instruction completes with the low `n` bytes of `v` stored from address `a` up and goes on with the next one;
nothing else changes. -/
def StoresDatum (i : Instr) (s : State) (a : Word) (n : Nat) (v : Word) : Prop :=
  ∃ t, exec i s = .next t ∧ HoldsDatum t a n v ∧ SameMemoryOutside a n s t ∧ t.pc = s.pc + 4 ∧ SameRegsBut [] s t ∧
    t.flags = s.flags ∧ t.mode = s.mode ∧ SameOutside s t

/-! ### Values that statements compare with -/

/-- A 16-bit immediate extended in one of the two ways of R109. -/
def immValue (e : ImmExt) (imm : BitVec 16) : Word :=
  match e with
  | .zero => imm.setWidth 64
  | .sign => imm.signExtend 64

/-- The effective address of the loads and stores: `x[rs1] + simm_E + (x[rs2] << func)` (R310; log 10). -/
def indexedAddress (s : State) (rs1 rs2 : RegId) (func : Nibble) (imm : BitVec 8) : Word :=
  s.reg rs1 + imm.signExtend 64 + s.reg rs2 <<< func.toNat

/-- The second operand of the immediate form of an operation (R350, D13; log 7). -/
def aluOperand (op : AluOp) (imm : BitVec 16) : Word := immValue (Config.aluImmExt op) imm

/-- The operands on which the signed divide helpers answer absent (R436). -/
def SignedDivideFails (a b : Word) : Prop := b = 0 ∨ (a = 0x8000000000000000 ∧ b = 0xFFFFFFFFFFFFFFFF)

/-- A pattern is finite and its value is the rational number `q` (R461). -/
def FloatIs (p : FloatPrec) (a : BitVec p.width) (q : ℚ) : Prop :=
  match floatValue p a with
  | .fin neg mant exp => q = (if neg then -1 else 1) * (mant : ℚ) * (2 : ℚ) ^ exp
  | .inf _ => False
  | .nan => False

/-- A pattern that is neither subnormal nor a NaN: one that no choice of FLOAT_NUMERICS replaces (D25). -/
def FloatPlain (p : FloatPrec) (a : BitVec p.width) : Prop := floatIsSubnormal p a = false ∧ floatIsNan p a = false

/-! ### The invariant -/

/-- Memory is in its canonical form (log 12). -/
def State.memoryOk (s : State) : Prop := Memory.wf s.mem = true

end Sys2Proof.Machine

namespace Sys2Proof

/-! ### Sets of instructions that whole-machine statements name -/

/-- The instructions that store to memory: the stores, `push`, `enter` and `jal` (R231, R271, R273, R318 to R321). -/
def Instr.storesToMemory : Instr → Bool
  | .sw _ _ _ _ _ | .sh _ _ _ _ _ | .sq _ _ _ _ _ | .sb _ _ _ _ _ | .push _ | .enter | .jal _ _ => true
  | _ => false

/-- The instructions that set the flags: the compares (R341, R342, R401). -/
def Instr.setsFlags : Instr → Bool
  | .cmpr _ _ | .cmpi _ _ _ | .fcmpF16 _ _ | .fcmpF32 _ _ | .fcmpF64 _ _ => true
  | _ => false

/-- The instruction is a division or remainder whose helper answers absent on its operands (R436 to R439, R444). -/
def Instr.DivisionFails (i : Instr) (s : Machine.State) : Prop :=
  match i with
  | .idivr _ a b | .remr _ a b | .modr _ a b => Machine.SignedDivideFails (s.reg a) (s.reg b)
  | .idivi _ a imm => Machine.SignedDivideFails (s.reg a) (Machine.aluOperand .idiv imm)
  | .remi _ a imm => Machine.SignedDivideFails (s.reg a) (Machine.aluOperand .rem imm)
  | .modi _ a imm => Machine.SignedDivideFails (s.reg a) (Machine.aluOperand .mod imm)
  | .udivr _ _ b => s.reg b = 0
  | .udivi _ _ imm => Machine.aluOperand .udiv imm = 0
  | _ => False

/-- The instructions of interrupts and modes: `int`, `iret`, `ires`, `usr` (R200). -/
def Instr.isSystemControl : Instr → Bool
  | .int _ | .iret | .ires | .usr _ => true
  | _ => false

end Sys2Proof
end

