-- ==== Sys2Proof/Certificates/Slice0/Obligations.lean ====
section
/-! DEFINITION. Obligations: the statements for the provers. The blocks' statements follow the numbered rules of
30_encoding.md and 48_helper_arith.md; those about the machine follow the Meaning lines of 40_system_io.md to
47_float.md, with the model's own choices named by their log entry. -/

open Sys2Proof Sys2Proof.Machine

/-! ### The block -/

/-- R131(a): decoding an encoded instruction gives it back, with every operand. -/
def Obligations.DecodeOfEncode : Prop := ∀ i : Instr, decode (encode i) = .some i

/-- R131(b), (c): encoding a decoded word gives the word with its unused fields zero, so a canonical word itself. -/
def Obligations.ReencodeIsCanonical : Prop :=
  ∀ (w : InstrWord) (i : Instr), decode w = .some i →
    canon w = some (encode i) ∧ (isCanonical w = true → encode i = w)

/-- R106: the three round-trip laws of each format. -/
def Obligations.FormatRoundTrips : Prop :=
  (∀ w, packE (unpackE w) (opcodeOf w) = w) ∧
  (∀ r op, unpackE (packE r op) = r ∧ opcodeOf (packE r op) = op) ∧
  (∀ w, packR (unpackR w) (opcodeOf w) = w) ∧
  (∀ r op, unpackR (packR r op) = r ∧ opcodeOf (packR r op) = op) ∧
  (∀ w, packM (unpackM w) (opcodeOf w) = w) ∧
  (∀ r op, unpackM (packM r op) = r ∧ opcodeOf (packM r op) = op) ∧
  (∀ w, packF (unpackF w) (opcodeOf w) = w) ∧
  (∀ r op, unpackF (packF r op) = r ∧ opcodeOf (packF r op) = op) ∧
  (∀ w, packB (unpackB w) (opcodeOf w) = w) ∧
  (∀ r op, unpackB (packB r op) = r ∧ opcodeOf (packB r op) = op)

/-- R134: a word that decodes matches one row of the table, that of its instruction, and no other. -/
def Obligations.DecodedWordMatchesOneRow : Prop :=
  ∀ (w : InstrWord) (i : Instr), decode w = .some i →
    i.row ∈ opcodeRows ∧ ∀ r ∈ opcodeRows, (r.covers w = true ↔ r = i.row)

/-- R112: the 180 unassigned opcodes, and the failure of every word that has one (decision D4). -/
def Obligations.UnassignedOpcodesFail : Prop :=
  (∀ op : BitVec 8, familyOf op = none ↔
    op = 0x00 ∨ op = 0x0F ∨ op = 0x1C ∨ op = 0x1D ∨ 0x50 ≤ op.toNat) ∧
  ((List.range 256).filter fun n => (familyOf (BitVec.ofNat 8 n)).isNone).length = 180 ∧
  ∀ w, familyOf (opcodeOf w) = none → decode w = .none .badOpcode

/-- R113, R501: which words fail for which reason, and the reason's code on the decoder port (decision D2). -/
def Obligations.FailureReasons : Prop :=
  ∀ w : InstrWord,
    (decode w = .none .badOpcode ↔ familyOf (opcodeOf w) = none) ∧
    (decode w = .none .badSubcode ↔
      (opcodeOf w = 0x01 ∧ 4 ≤ (w.extractLsb' 24 4).toNat) ∨
      (opcodeOf w = 0x0A ∧ (w.extractLsb' 28 4 = 7 ∨ w.extractLsb' 28 4 = 8 ∨ w.extractLsb' 28 4 = 15)) ∨
      (opcodeOf w = 0x10 ∧ 8 ≤ (w.extractLsb' 24 4).toNat) ∨
      (opcodeOf w = 0x1F ∧ 2 ≤ (w.extractLsb' 24 4).toNat) ∨
      (0x40 ≤ (opcodeOf w).toNat ∧ (opcodeOf w).toNat ≤ 0x4F ∧ opcodeOf w ≠ 0x4E ∧
        3 ≤ (w.extractLsb' 16 4).toNat) ∨
      (opcodeOf w = 0x4E ∧ (w.extractLsb' 16 2 = 3 ∨ w.extractLsb' 18 2 = 3))) ∧
    (decode w = .none .badIntHighByte ↔
      opcodeOf w = 0x01 ∧ w.extractLsb' 24 4 = 0 ∧ w.extractLsb' 16 8 ≠ 0) ∧
    ((decoderPort w).failReason = 0 ↔ ∃ i, decode w = .some i) ∧
    ((decoderPort w).failReason = 1 ↔ decode w = .none .badOpcode) ∧
    ((decoderPort w).failReason = 2 ↔ decode w = .none .badSubcode) ∧
    ((decoderPort w).failReason = 3 ↔ decode w = .none .badIntHighByte) ∧
    ((decoderPort w).valid = true ↔ (decoderPort w).failReason = 0)

/-- R118: the interrupt operand of the trap, and that its check is made of no other instruction. -/
def Obligations.InterruptOperand : Prop :=
  (∀ w : InstrWord, opcodeOf w = 0x01 → w.extractLsb' 24 4 = 0 →
    decode w = if w.extractLsb' 16 8 = 0 then .some (.int (w.extractLsb' 8 8)) else .none .badIntHighByte) ∧
  ∀ w : InstrWord, decode w = .none .badIntHighByte → opcodeOf w = 0x01 ∧ w.extractLsb' 24 4 = 0

/-- R79: reading a slice after writing it gives the value, and every other bit of the container stays. -/
def Obligations.SliceIsolation : Prop :=
  ∀ (S : SliceKind) (C : Container) (i : Nat) (c : BitVec C.width) (v : BitVec S.width), sliceLegal S C i = true →
    ∃ c', sliceWrite S C i c v = some c' ∧ sliceRead S C i c' = some v ∧
      c' &&& ~~~(fieldMask C.width (i * S.width) S.width) = c &&& ~~~(fieldMask C.width (i * S.width) S.width)

/-- R80: sign extension by shifts, its closed form, that it ignores the bits above, and the width of 64. -/
def Obligations.SignExtension : Prop :=
  (∀ (n : Nat) (v : Word), 1 ≤ n → n ≤ 64 →
    sext n v = (v <<< (64 - n)).sshiftRight (64 - n) ∧
    (v.getLsbD (n - 1) = false → sext n v = v &&& BitVec.ofNat 64 (2 ^ n - 1)) ∧
    (v.getLsbD (n - 1) = true →
      sext n v = (v &&& BitVec.ofNat 64 (2 ^ n - 1)) ||| ~~~(BitVec.ofNat 64 (2 ^ n - 1))) ∧
    sext n v = sext n (v &&& BitVec.ofNat 64 (2 ^ n - 1)) ∧
    (sext n v).toInt = (v.toNat : Int).bmod (2 ^ n)) ∧
  ∀ v, sext 64 v = v

/-- R50: a word and its four bytes at rising addresses, least significant first; the first is the opcode. -/
def Obligations.WordBytes : Prop :=
  (∀ b0 b1 b2 b3 : Byte,
    (wordOfBytes b0 b1 b2 b3).toNat = b0.toNat + b1.toNat * 2 ^ 8 + b2.toNat * 2 ^ 16 + b3.toNat * 2 ^ 24 ∧
    byteOfWord 0 (wordOfBytes b0 b1 b2 b3) = b0 ∧ byteOfWord 1 (wordOfBytes b0 b1 b2 b3) = b1 ∧
    byteOfWord 2 (wordOfBytes b0 b1 b2 b3) = b2 ∧ byteOfWord 3 (wordOfBytes b0 b1 b2 b3) = b3 ∧
    opcodeOf (wordOfBytes b0 b1 b2 b3) = b0 ∧ decodeBytes b0 b1 b2 b3 = decode (wordOfBytes b0 b1 b2 b3)) ∧
  ∀ w : InstrWord, wordOfBytes (byteOfWord 0 w) (byteOfWord 1 w) (byteOfWord 2 w) (byteOfWord 3 w) = w

/-- Words written out from the encodings of 40_system_io.md to 47_float.md, one for each family and one for each reason of
failure, decode to their instructions. -/
def Obligations.SpecWordsDecode : Prop :=
  decode 0x00000501 = .some (.int 5) ∧
  decode 0x12000002 = .some (.outr 1 2) ∧
  decode 0x12000407 = .some (.jalr 1 2 4) ∧
  decode 0x9FFFFE0A = .some (.bne 0xFFFFE) ∧
  decode 0x0300000B = .some (.push 3) ∧
  decode 0x21FFFE10 = .some (.llis 2 0xFFFE) ∧
  decode 0x4153201B = .some (.sb 4 1 5 3 0x20) ∧
  decode 0x1200001E = .some (.cmpr 1 2) ∧
  decode 0x1101001F = .some (.cmpi .immediateFirst 1 0x0100) ∧
  decode 0x123ABC20 = .some (.addr 1 2 3) ∧
  decode 0x43003223 = .some (.subi 4 3 0x32) ∧
  decode 0x12310045 = .some (.faddF32 1 2 3) ∧
  decode 0x7000000A = .none .badSubcode ∧
  decode 0x000000FF = .none .badOpcode ∧
  decode 0x00FF0501 = .none .badIntHighByte

/-! ### The arithmetic helper layer -/

/-- R432: the sum, the unsigned flag as an "or" of two steps, and the signed flag as an "or" of two steps. -/
def Obligations.AddHelper : Prop :=
  ∀ (a b : Word) (c : Bool),
    (helperAdd a b c).result.toNat = (a.toNat + b.toNat + c.toNat) % 2 ^ 64 ∧
    ((helperAdd a b c).unsignedOverflow = true ↔
      2 ^ 64 ≤ a.toNat + b.toNat ∨ 2 ^ 64 ≤ (a.toNat + b.toNat) % 2 ^ 64 + c.toNat) ∧
    ((helperAdd a b c).signedOverflow = true ↔
      a.toInt + b.toInt < -2 ^ 63 ∨ 2 ^ 63 ≤ a.toInt + b.toInt ∨ 2 ^ 63 ≤ (a + b).toInt + c.toNat)

/-- R434: the difference and its two flags, with the borrow subtracted in both domains (the spec's reading, log 19). -/
def Obligations.SubHelper : Prop :=
  ∀ (a b : Word) (c : Bool),
    (helperSub a b c).result.toNat = (2 ^ 65 + a.toNat - b.toNat - c.toNat) % 2 ^ 64 ∧
    ((helperSub a b c).unsignedOverflow = true ↔ a.toNat < b.toNat + c.toNat) ∧
    ((helperSub a b c).signedOverflow = true ↔
      a.toInt - b.toInt < -2 ^ 63 ∨ 2 ^ 63 ≤ a.toInt - b.toInt ∨ (a - b).toInt - c.toNat < -2 ^ 63)

/-- R437: the floor of the unsigned quotient, absent exactly for a zero divisor. -/
def Obligations.UnsignedDivideHelper : Prop :=
  ∀ a b : Word,
    (helperUdiv a b = none ↔ b = 0) ∧ ∀ q, helperUdiv a b = some q → q.toNat = a.toNat / b.toNat

/-- R438: the signed truncating remainder, its failures, its sign, and the source's vector. -/
def Obligations.RemainderHelper : Prop :=
  (∀ a b : Word,
    (helperRem a b = none ↔ SignedDivideFails a b) ∧
    ∀ r, helperRem a b = some r →
      r.toInt = a.toInt - b.toInt * a.toInt.tdiv b.toInt ∧ r.toInt.natAbs < b.toInt.natAbs ∧
      (0 ≤ a.toInt → 0 ≤ r.toInt) ∧ (a.toInt ≤ 0 → r.toInt ≤ 0)) ∧
  helperRem (BitVec.ofInt 64 (-7)) 3 = some 0xFFFFFFFFFFFFFFFF

/-- R439: the signed Euclidean remainder, its failures, and the source's vector. -/
def Obligations.ModuloHelper : Prop :=
  (∀ a b : Word,
    (helperMod a b = none ↔ SignedDivideFails a b) ∧
    ∀ r, helperMod a b = some r →
      0 ≤ r.toInt ∧ r.toInt < b.toInt.natAbs ∧ ∃ q : Int, a.toInt = q * b.toInt + r.toInt) ∧
  helperMod (BitVec.ofInt 64 (-7)) 3 = some 2

/-- Shifts and the bit test below 64 (R441 to R443); at 64 and above they are constants without a body, for the parameters
that the spec's decisions D18 and D26 leave open (the model's choice, log 19). -/
def Obligations.ShiftAndBitHelpers : Prop :=
  ∀ a b : Word,
    (b.toNat < 64 →
      (helperShl a b).toNat = a.toNat * 2 ^ b.toNat % 2 ^ 64 ∧
      (helperShr a b).toNat = a.toNat / 2 ^ b.toNat ∧
      (helperAsr a b).toInt = a.toInt / 2 ^ b.toNat ∧
      (helperBit a b).toNat = a.toNat / 2 ^ b.toNat % 2) ∧
    (64 ≤ b.toNat →
      helperShl a b = Config.shiftOverWidth .shl a b ∧
      helperShr a b = Config.shiftOverWidth .shr a b ∧
      helperAsr a b = Config.shiftOverWidth .asr a b ∧
      helperBit a b = Config.bitIndexOverWidth a b)

/-! ### The step -/

/-- When the word at pc decodes to an instruction, the step is that instruction's meaning (R110, R500). -/
def Obligations.StepRunsDecodedInstruction : Prop :=
  ∀ (s : State) (i : Instr), decode s.fetch = .some i → step s = exec i s

/-- The step is never refused, and it faults exactly when the word at pc does not decode, with the reason of that
failure (R500, U5; the fault is the model's choice, log 29). -/
def Obligations.StepOutcomes : Prop :=
  ∀ s : State,
    (∀ r, step s ≠ .refused r) ∧
    (∀ f, step s = .fault f ↔ ∃ r, decode s.fetch = .none r ∧ f = faultOf r) ∧
    ((∃ t, step s = .next t) ↔ ∃ i, decode s.fetch = .some i)

/-- An instruction whose encoding is placed at pc is the one the next step runs; nothing but the four bytes changes
(R50, R130; logs 5, 12). -/
def Obligations.RunsAnEncodedInstruction : Prop :=
  ∀ (s : State) (i : Instr), s.memoryOk →
    step (s.placeWord (encode i)) = exec i (s.placeWord (encode i)) ∧
    SameMemoryOutside s.pc 4 s (s.placeWord (encode i))

/-- Every step keeps memory in its canonical form (the model's own invariant, log 12). -/
def Obligations.StepKeepsMemoryForm : Prop :=
  ∀ s t : State, s.memoryOk → step s = .next t → t.memoryOk

/-- The machine after reset: the model's choice for every field (logs 3, 5, 6, 12, 17), as 95_test_vectors.md Part 3
starts its programs. -/
def Obligations.ResetState : Prop :=
  State.reset.memoryOk ∧ (∀ r, State.reset.reg r = 0) ∧ State.reset.pc = 0 ∧ (∀ a, State.reset.readByte a = 0) ∧
  State.reset.flags = { eq := false, zero := false, lt := false, ltu := false } ∧ State.reset.mode = .nonUser ∧
  State.reset.intCmds = [] ∧ State.reset.portOuts = [] ∧ State.reset.draws = 0

/-- Only the stores, `push`, `enter` and `jal` change memory. What of it is the model's choice: that a load, `pop`, `leave` or
`ret` changes none (R58; log 12), nor a port access (log 13), nor `ires` (log 16) or `usr` (log 17), and that `int`, `iret`
and a division that traps save nothing there (logs 14, 15, 18). -/
def Obligations.OnlyStoresChangeMemory : Prop :=
  ∀ (i : Instr) (s t : State), exec i s = .next t → i.storesToMemory = false → SameMemory s t

/-- Only the compares change the flags. That the ALU's overflow flags go nowhere is log 6, and what else is the model's
choice: that a port access (log 13), `ires` (log 16) and `usr` (log 17) keep the flags, and that `int`, `iret` and a division
that traps do (logs 14, 15, 18). -/
def Obligations.OnlyComparesChangeFlags : Prop :=
  ∀ (i : Instr) (s t : State), exec i s = .next t → i.setsFlags = false → t.flags = s.flags

/-- Only system control, and a division whose helper fails, change the mode or speak to the interrupt controller; every
other instruction, a division that does not fail included, keeps both (R200, R204, R444, R512; logs 14, 17, 18). `usr`
enters user mode; that `ires` keeps the mode is the model's choice (log 16). -/
def Obligations.ModeChanges : Prop :=
  ∀ (i : Instr) (s t : State), exec i s = .next t →
    (i.isSystemControl = false → ¬ i.DivisionFails s → t.mode = s.mode ∧ t.intCmds = s.intCmds) ∧
    (i = .ires → t.mode = s.mode) ∧ (∀ r, i = .usr r → t.mode = .user)

/-- A step only adds to what has gone out of the machine, and never takes a free value twice (logs 13, 14, 28). -/
def Obligations.HistoriesGrow : Prop :=
  ∀ s t : State, step s = .next t → s.intCmds <+: t.intCmds ∧ s.portOuts <+: t.portOuts ∧ s.draws ≤ t.draws

/-! ### System control and ports -/

/-- `int`, `iret`, `ires`, `usr` (R201 to R204; what the spec leaves open is log 14 to 17). -/
def Obligations.SystemControl : Prop :=
  ∀ s : State,
    (∀ id, RaisesInterrupt (.int id) s id) ∧
    (∃ t, exec .iret s = .next t ∧ t.intCmds = s.intCmds ++ [.returned] ∧ t.pc = Config.iretTarget s.draws ∧
      t.mode = Config.iretMode s.draws ∧ t.draws = s.draws + 1 ∧ SameRegsBut [] s t ∧ t.flags = s.flags ∧
      SameMemory s t ∧ t.portOuts = s.portOuts) ∧
    (∃ t, exec .ires s = .next t ∧ t.intCmds = s.intCmds ++ [.resolved] ∧ t.pc = s.pc + 4 ∧ t.mode = s.mode ∧
      t.draws = s.draws ∧ SameRegsBut [] s t ∧ t.flags = s.flags ∧ SameMemory s t ∧ t.portOuts = s.portOuts) ∧
    ∀ rde, ∃ t, exec (.usr rde) s = .next t ∧ t.mode = .user ∧ t.pc = s.reg rde ∧ SameRegsBut [] s t ∧
      t.flags = s.flags ∧ SameMemory s t ∧ SameOutside s t

/-- The port instructions: what goes out is recorded, what comes in is the next free value (R206 to R209; log 13). -/
def Obligations.PortInstructions : Prop :=
  ∀ (s : State) (rde rs1 : RegId) (imm : Port),
    (∃ t, exec (.outr rde rs1) s = .next t ∧
      t.portOuts = s.portOuts ++ [{ port := (s.reg rde).extractLsb' 0 16, value := s.reg rs1 }] ∧ t.pc = s.pc + 4 ∧
      SameRegsBut [] s t ∧ t.flags = s.flags ∧ t.mode = s.mode ∧ SameMemory s t ∧ t.intCmds = s.intCmds ∧
      t.draws = s.draws) ∧
    (∃ t, exec (.outi rs1 imm) s = .next t ∧ t.portOuts = s.portOuts ++ [{ port := imm, value := s.reg rs1 }] ∧
      t.pc = s.pc + 4 ∧ SameRegsBut [] s t ∧ t.flags = s.flags ∧ t.mode = s.mode ∧ SameMemory s t ∧
      t.intCmds = s.intCmds ∧ t.draws = s.draws) ∧
    (∃ t, exec (.inr rde rs1) s = .next t ∧ t.reg rde = Config.portInput ((s.reg rs1).extractLsb' 0 16) s.draws ∧
      t.pc = s.pc + 4 ∧ SameRegsBut [rde] s t ∧ t.flags = s.flags ∧ t.mode = s.mode ∧ SameMemory s t ∧
      t.intCmds = s.intCmds ∧ t.portOuts = s.portOuts ∧ t.draws = s.draws + 1) ∧
    ∃ t, exec (.ini rde imm) s = .next t ∧ t.reg rde = Config.portInput imm s.draws ∧ t.pc = s.pc + 4 ∧
      SameRegsBut [rde] s t ∧ t.flags = s.flags ∧ t.mode = s.mode ∧ SameMemory s t ∧ t.intCmds = s.intCmds ∧
      t.portOuts = s.portOuts ∧ t.draws = s.draws + 1

/-! ### Control flow -/

/-- `jal`, `jalr`, `ret`, `retr` (R231 to R234; the return address, the order and the stack are logs 4, 8, 9; that
the memory of the stack is plain storage is the model's choice, R58, log 12). -/
def Obligations.CallsAndReturns : Prop :=
  ∀ s : State, s.memoryOk →
    (∀ rs1 imm, ∃ t, exec (.jal rs1 imm) s = .next t ∧
      t.pc = (if rs1 = spReg then s.reg spReg - 8 else s.reg rs1) + 4 * imm.signExtend 64 ∧
      t.reg spReg = s.reg spReg - 8 ∧ HoldsDatum t (s.reg spReg - 8) 8 (s.pc + 4) ∧
      SameMemoryOutside (s.reg spReg - 8) 8 s t ∧ SameRegsBut [spReg] s t ∧ t.flags = s.flags ∧ t.mode = s.mode ∧
      SameOutside s t) ∧
    (∀ rde rs1 imm, ∃ t, exec (.jalr rde rs1 imm) s = .next t ∧
      t.pc = (if rs1 = rde then s.pc + 4 else s.reg rs1) + 4 * imm.signExtend 64 ∧ t.reg rde = s.pc + 4 ∧
      SameRegsBut [rde] s t ∧ t.flags = s.flags ∧ t.mode = s.mode ∧ SameMemory s t ∧ SameOutside s t) ∧
    (∃ t, exec .ret s = .next t ∧ t.pc = s.memRead (s.reg spReg) 8 ∧ t.reg spReg = s.reg spReg + 8 ∧
      SameRegsBut [spReg] s t ∧ t.flags = s.flags ∧ t.mode = s.mode ∧ SameMemory s t ∧ SameOutside s t) ∧
    ∀ rs1, JumpsTo (.retr rs1) s (s.reg rs1)

/-- The 13 branches: `pc + 4 * simm_B` when the condition holds on the flags, else the next instruction (R122, R236 to
R248; log 8). -/
def Obligations.Branches : Prop :=
  ∀ (s : State) (imm : BitVec 20),
    let taken := s.pc + 4 * imm.signExtend 64
    JumpsTo (.bra imm) s taken ∧
    JumpsTo (.beq imm) s (if s.flags.eq = true then taken else s.pc + 4) ∧
    JumpsTo (.bez imm) s (if s.flags.zero = true then taken else s.pc + 4) ∧
    JumpsTo (.blt imm) s (if s.flags.lt = true then taken else s.pc + 4) ∧
    JumpsTo (.ble imm) s (if s.flags.lt = true ∨ s.flags.eq = true then taken else s.pc + 4) ∧
    JumpsTo (.bltu imm) s (if s.flags.ltu = true then taken else s.pc + 4) ∧
    JumpsTo (.bleu imm) s (if s.flags.ltu = true ∨ s.flags.eq = true then taken else s.pc + 4) ∧
    JumpsTo (.bne imm) s (if s.flags.eq = true then s.pc + 4 else taken) ∧
    JumpsTo (.bnz imm) s (if s.flags.zero = true then s.pc + 4 else taken) ∧
    JumpsTo (.bge imm) s (if s.flags.lt = true then s.pc + 4 else taken) ∧
    JumpsTo (.bgt imm) s (if s.flags.lt = true ∨ s.flags.eq = true then s.pc + 4 else taken) ∧
    JumpsTo (.bgeu imm) s (if s.flags.ltu = true then s.pc + 4 else taken) ∧
    JumpsTo (.bgtu imm) s (if s.flags.ltu = true ∨ s.flags.eq = true then s.pc + 4 else taken)

/-- After `cmpr`, each branch but `bez` and `bnz` is taken when the two registers are in the relation its name says,
signed or unsigned (R122, R341; log 8). -/
def Obligations.CompareThenBranch : Prop :=
  ∀ (s : State) (a b : RegId) (imm : BitVec 20), ∃ t, exec (.cmpr a b) s = .next t ∧ t.pc = s.pc + 4 ∧
    let x := s.reg a
    let y := s.reg b
    let taken := s.pc + 4 + 4 * imm.signExtend 64
    let next := s.pc + 8
    JumpsTo (.beq imm) t (if x = y then taken else next) ∧
    JumpsTo (.bne imm) t (if x ≠ y then taken else next) ∧
    JumpsTo (.blt imm) t (if x.toInt < y.toInt then taken else next) ∧
    JumpsTo (.ble imm) t (if x.toInt ≤ y.toInt then taken else next) ∧
    JumpsTo (.bge imm) t (if y.toInt ≤ x.toInt then taken else next) ∧
    JumpsTo (.bgt imm) t (if y.toInt < x.toInt then taken else next) ∧
    JumpsTo (.bltu imm) t (if x.toNat < y.toNat then taken else next) ∧
    JumpsTo (.bleu imm) t (if x.toNat ≤ y.toNat then taken else next) ∧
    JumpsTo (.bgeu imm) t (if y.toNat ≤ x.toNat then taken else next) ∧
    JumpsTo (.bgtu imm) t (if y.toNat < x.toNat then taken else next)

/-! ### Stack -/

/-- `push` and `pop`, with the stack pointer itself as operand read and written in the order of the Meaning lines (R271,
R272; logs 4, 9; that the memory of the stack is plain storage is the model's choice, R58, log 12). -/
def Obligations.PushAndPop : Prop :=
  ∀ s : State, s.memoryOk →
    (∀ rs1, ∃ t, exec (.push rs1) s = .next t ∧ t.reg spReg = s.reg spReg - 8 ∧
      HoldsDatum t (s.reg spReg - 8) 8 (if rs1 = spReg then s.reg spReg - 8 else s.reg rs1) ∧
      SameMemoryOutside (s.reg spReg - 8) 8 s t ∧ SameRegsBut [spReg] s t ∧ t.pc = s.pc + 4 ∧ t.flags = s.flags ∧
      t.mode = s.mode ∧ SameOutside s t) ∧
    ∀ rde, ∃ t, exec (.pop rde) s = .next t ∧
      t.reg rde = (if rde = spReg then s.memRead (s.reg spReg) 8 + 8 else s.memRead (s.reg spReg) 8) ∧
      t.reg spReg = (if rde = spReg then s.memRead (s.reg spReg) 8 + 8 else s.reg spReg + 8) ∧
      SameRegsBut [rde, spReg] s t ∧ t.pc = s.pc + 4 ∧ t.flags = s.flags ∧ t.mode = s.mode ∧ SameMemory s t ∧
      SameOutside s t

/-- `enter` and `leave` (R273, R274; logs 4, 9; that the memory of the stack is plain storage is the model's choice, R58,
log 12). -/
def Obligations.EnterAndLeave : Prop :=
  ∀ s : State, s.memoryOk →
    (∃ t, exec .enter s = .next t ∧ t.reg spReg = s.reg spReg - 8 ∧ t.reg fpReg = s.reg spReg - 8 ∧
      HoldsDatum t (s.reg spReg - 8) 8 (if fpReg = spReg then s.reg spReg - 8 else s.reg fpReg) ∧
      SameMemoryOutside (s.reg spReg - 8) 8 s t ∧ SameRegsBut [spReg, fpReg] s t ∧ t.pc = s.pc + 4 ∧
      t.flags = s.flags ∧ t.mode = s.mode ∧ SameOutside s t) ∧
    ∃ t, exec .leave s = .next t ∧
      t.reg fpReg = (if fpReg = spReg then s.memRead (s.reg fpReg) 8 + 8 else s.memRead (s.reg fpReg) 8) ∧
      t.reg spReg = (if fpReg = spReg then s.memRead (s.reg fpReg) 8 + 8 else s.reg fpReg + 8) ∧
      SameRegsBut [spReg, fpReg] s t ∧ t.pc = s.pc + 4 ∧
      t.flags = s.flags ∧ t.mode = s.mode ∧ SameMemory s t ∧ SameOutside s t

/-- What is pushed is popped; `leave` undoes `enter` on the registers, even if one register is both pointers; `ret` comes
back from `jal` (R231, R233, R271 to R274; logs 4, 8, 9). That what was stored is read back, every address being plain
storage, is the model's choice (R58; log 12). `push` and `pop` of the stack pointer itself are in `PushAndPop`. -/
def Obligations.StackRoundTrips : Prop :=
  ∀ s : State, s.memoryOk →
    (∀ a b, a ≠ spReg → b ≠ spReg → ∃ t u, exec (.push a) s = .next t ∧ exec (.pop b) t = .next u ∧
      u.reg b = s.reg a ∧ u.reg spReg = s.reg spReg ∧ SameRegsBut [b] s u) ∧
    (∃ t u, exec .enter s = .next t ∧ exec .leave t = .next u ∧ SameRegsBut [] s u) ∧
    ∀ rs1 imm, ∃ t u, exec (.jal rs1 imm) s = .next t ∧ exec .ret t = .next u ∧ u.pc = s.pc + 4 ∧ SameRegsBut [] s u

/-! ### Load immediate -/

/-- The plain types replace one 16-bit slice; the sign-extending types fill the whole register (R123, R291 to R298). -/
def Obligations.LoadImmediates : Prop :=
  ∀ (s : State) (rde : RegId) (imm : BitVec 16),
    WritesReg (.lli rde imm) s rde ((s.reg rde).extractLsb' 16 48 ++ imm) ∧
    WritesReg (.lui rde imm) s rde ((s.reg rde).extractLsb' 32 32 ++ imm ++ (s.reg rde).extractLsb' 0 16) ∧
    WritesReg (.lti rde imm) s rde ((s.reg rde).extractLsb' 48 16 ++ imm ++ (s.reg rde).extractLsb' 0 32) ∧
    WritesReg (.ltui rde imm) s rde (imm ++ (s.reg rde).extractLsb' 0 48) ∧
    WritesReg (.llis rde imm) s rde (imm.signExtend 64) ∧
    WritesReg (.luis rde imm) s rde ((imm ++ (0 : BitVec 16)).signExtend 64) ∧
    WritesReg (.ltis rde imm) s rde ((imm ++ (0 : BitVec 32)).signExtend 64) ∧
    WritesReg (.ltuis rde imm) s rde (imm ++ (0 : BitVec 48))

/-! ### Loads and stores -/

/-- A load's result: the datum at the effective address, zero-extended or sign-extended from its width, and
that a load has no further effect (R311 to R317; logs 10, 12). -/
def Obligations.Loads : Prop :=
  ∀ (s : State) (rde rs1 rs2 : RegId) (func : Nibble) (imm : BitVec 8),
    let ea := indexedAddress s rs1 rs2 func imm
    WritesReg (.lw rde rs1 rs2 func imm) s rde (s.memRead ea 8) ∧
    WritesReg (.lh rde rs1 rs2 func imm) s rde (((s.memRead ea 4).extractLsb' 0 32).setWidth 64) ∧
    WritesReg (.lhs rde rs1 rs2 func imm) s rde (((s.memRead ea 4).extractLsb' 0 32).signExtend 64) ∧
    WritesReg (.lq rde rs1 rs2 func imm) s rde (((s.memRead ea 2).extractLsb' 0 16).setWidth 64) ∧
    WritesReg (.lqs rde rs1 rs2 func imm) s rde (((s.memRead ea 2).extractLsb' 0 16).signExtend 64) ∧
    WritesReg (.lb rde rs1 rs2 func imm) s rde ((s.readByte ea).setWidth 64) ∧
    WritesReg (.lbs rde rs1 rs2 func imm) s rde ((s.readByte ea).signExtend 64)

/-- A datum read from memory is made of the bytes from its address up, in the machine's data byte order (log 11), and
nothing above them; addresses wrap (R11, R57; log 10). -/
def Obligations.ReadDatumBytes : Prop :=
  ∀ (s : State) (a : Word) (n : Nat), n ≤ 8 →
    (∀ k, k < n → (s.memRead a n).extractLsb' (8 * k) 8 =
      s.readByte (a + BitVec.ofNat 64 (match Config.dataOrder with
        | .little => k
        | .big => n - 1 - k))) ∧
    ∀ j, 8 * n ≤ j → (s.memRead a n).getLsbD j = false

/-- A store puts the low bytes of the register at the effective address and changes nothing else (R318 to R321; logs 10,
11, 12). -/
def Obligations.Stores : Prop :=
  ∀ s : State, s.memoryOk → ∀ (rde rs1 rs2 : RegId) (func : Nibble) (imm : BitVec 8),
    let ea := indexedAddress s rs1 rs2 func imm
    StoresDatum (.sw rde rs1 rs2 func imm) s ea 8 (s.reg rde) ∧
    StoresDatum (.sh rde rs1 rs2 func imm) s ea 4 (s.reg rde) ∧
    StoresDatum (.sq rde rs1 rs2 func imm) s ea 2 (s.reg rde) ∧
    StoresDatum (.sb rde rs1 rs2 func imm) s ea 1 (s.reg rde)

/-- What a store wrote, the load of its width reads back, whatever the data byte order (R311 to R321; that every
address is plain storage is the model's choice, R58; logs 10, 12). -/
def Obligations.StoreThenLoad : Prop :=
  ∀ s : State, s.memoryOk → ∀ (rde d rs1 rs2 : RegId) (func : Nibble) (imm : BitVec 8),
    (∃ t, exec (.sw rde rs1 rs2 func imm) s = .next t ∧ WritesReg (.lw d rs1 rs2 func imm) t d (s.reg rde)) ∧
    (∃ t, exec (.sh rde rs1 rs2 func imm) s = .next t ∧
      WritesReg (.lh d rs1 rs2 func imm) t d (((s.reg rde).extractLsb' 0 32).setWidth 64) ∧
      WritesReg (.lhs d rs1 rs2 func imm) t d (((s.reg rde).extractLsb' 0 32).signExtend 64)) ∧
    (∃ t, exec (.sq rde rs1 rs2 func imm) s = .next t ∧
      WritesReg (.lq d rs1 rs2 func imm) t d (((s.reg rde).extractLsb' 0 16).setWidth 64) ∧
      WritesReg (.lqs d rs1 rs2 func imm) t d (((s.reg rde).extractLsb' 0 16).signExtend 64)) ∧
    ∃ t, exec (.sb rde rs1 rs2 func imm) s = .next t ∧
      WritesReg (.lb d rs1 rs2 func imm) t d (((s.reg rde).extractLsb' 0 8).setWidth 64) ∧
      WritesReg (.lbs d rs1 rs2 func imm) t d (((s.reg rde).extractLsb' 0 8).signExtend 64)

/-! ### Compares -/

/-- The flags of `cmpr` and of `cmpi` in its two orders; the zero flag is a parameter (R341, R342; logs 6, 7). -/
def Obligations.Compares : Prop :=
  ∀ (s : State) (rde rs1 : RegId) (imm : BitVec 16),
    let flagsOf := fun x y : Word => ({ eq := decide (x = y), zero := Config.compareZero x y,
                                        lt := decide (x.toInt < y.toInt), ltu := decide (x.toNat < y.toNat) } : Flags)
    let v := immValue Config.cmpImmExt imm
    WritesFlags (.cmpr rde rs1) s (flagsOf (s.reg rde) (s.reg rs1)) ∧
    WritesFlags (.cmpi .registerFirst rde imm) s (flagsOf (s.reg rde) v) ∧
    WritesFlags (.cmpi .immediateFirst rde imm) s (flagsOf v (s.reg rde))

/-! ### Arithmetic and bitwise -/

/-- Addition, subtraction and the two multiplications in both forms (R351 to R356, R359, R360, R435; log 7). -/
def Obligations.AluArithmetic : Prop :=
  ∀ (s : State) (rde rs1 rs2 : RegId) (imm : BitVec 16),
    let a := s.reg rs1
    let b := s.reg rs2
    WritesReg (.addr rde rs1 rs2) s rde (a + b) ∧
    WritesReg (.addi rde rs1 imm) s rde (a + aluOperand .add imm) ∧
    WritesReg (.subr rde rs1 rs2) s rde (a - b) ∧
    WritesReg (.subi rde rs1 imm) s rde (a - aluOperand .sub imm) ∧
    WritesReg (.imulr rde rs1 rs2) s rde (a * b) ∧
    WritesReg (.imuli rde rs1 imm) s rde (a * aluOperand .imul imm) ∧
    WritesReg (.umulr rde rs1 rs2) s rde (a * b) ∧
    WritesReg (.umuli rde rs1 imm) s rde (a * aluOperand .umul imm)

/-- The bitwise operations in both forms (R367 to R374, R440; log 7). -/
def Obligations.AluLogic : Prop :=
  ∀ (s : State) (rde rs1 rs2 : RegId) (imm : BitVec 16),
    let a := s.reg rs1
    let b := s.reg rs2
    WritesReg (.andr rde rs1 rs2) s rde (a &&& b) ∧
    WritesReg (.andi rde rs1 imm) s rde (a &&& aluOperand .and imm) ∧
    WritesReg (.orr rde rs1 rs2) s rde (a ||| b) ∧
    WritesReg (.ori rde rs1 imm) s rde (a ||| aluOperand .or imm) ∧
    WritesReg (.norr rde rs1 rs2) s rde (~~~(a ||| b)) ∧
    WritesReg (.nori rde rs1 imm) s rde (~~~(a ||| aluOperand .nor imm)) ∧
    WritesReg (.xorr rde rs1 rs2) s rde (a ^^^ b) ∧
    WritesReg (.xori rde rs1 imm) s rde (a ^^^ aluOperand .xor imm)

/-- The shifts and the bit test in both forms, for every amount; 64 and above is a parameter (R375 to R382, R441 to
R443; log 7, 19). -/
def Obligations.AluShifts : Prop :=
  ∀ (s : State) (rde rs1 rs2 : RegId) (imm : BitVec 16),
    let a := s.reg rs1
    let b := s.reg rs2
    let shl := fun n : Word => if n.toNat < 64 then a <<< n.toNat else Config.shiftOverWidth .shl a n
    let asr := fun n : Word => if n.toNat < 64 then a.sshiftRight n.toNat else Config.shiftOverWidth .asr a n
    let shr := fun n : Word => if n.toNat < 64 then a >>> n.toNat else Config.shiftOverWidth .shr a n
    let bit := fun n : Word => if n.toNat < 64 then (a >>> n.toNat) &&& 1 else Config.bitIndexOverWidth a n
    WritesReg (.shlr rde rs1 rs2) s rde (shl b) ∧
    WritesReg (.shli rde rs1 imm) s rde (shl (aluOperand .shl imm)) ∧
    WritesReg (.asrr rde rs1 rs2) s rde (asr b) ∧
    WritesReg (.asri rde rs1 imm) s rde (asr (aluOperand .asr imm)) ∧
    WritesReg (.lsrr rde rs1 rs2) s rde (shr b) ∧
    WritesReg (.lsri rde rs1 imm) s rde (shr (aluOperand .lsr imm)) ∧
    WritesReg (.bitr rde rs1 rs2) s rde (bit b) ∧
    WritesReg (.biti rde rs1 imm) s rde (bit (aluOperand .bit imm))

/-- The divisions and remainders where their helper does not fail (R357, R358, R361 to R366, R436 to R439; log 7). -/
def Obligations.Divisions : Prop :=
  ∀ (s : State) (rde rs1 rs2 : RegId) (imm : BitVec 16),
    let a := s.reg rs1
    let b := s.reg rs2
    (¬ SignedDivideFails a b →
      WritesReg (.idivr rde rs1 rs2) s rde (a.sdiv b) ∧
      WritesReg (.remr rde rs1 rs2) s rde (a.srem b) ∧
      WritesReg (.modr rde rs1 rs2) s rde (BitVec.ofInt 64 (a.toInt % b.toInt))) ∧
    (¬ SignedDivideFails a (aluOperand .idiv imm) →
      WritesReg (.idivi rde rs1 imm) s rde (a.sdiv (aluOperand .idiv imm))) ∧
    (¬ SignedDivideFails a (aluOperand .rem imm) →
      WritesReg (.remi rde rs1 imm) s rde (a.srem (aluOperand .rem imm))) ∧
    (¬ SignedDivideFails a (aluOperand .mod imm) →
      WritesReg (.modi rde rs1 imm) s rde (BitVec.ofInt 64 (a.toInt % (aluOperand .mod imm).toInt))) ∧
    (b ≠ 0 → WritesReg (.udivr rde rs1 rs2) s rde (a / b)) ∧
    (aluOperand .udiv imm ≠ 0 → WritesReg (.udivi rde rs1 imm) s rde (a / aluOperand .udiv imm))

/-- Where a divide helper fails, the machine's parameter decides: a fallback value in the destination, or an interrupt
(R444, U6; the model's parameter, log 18). That the interrupt is precise, the destination not written, is the model's
choice (R509; logs 14, 18). -/
def Obligations.ArithmeticFailure : Prop :=
  ∀ (s : State) (rde rs1 rs2 : RegId) (imm : BitVec 16),
    let fails := fun (i : Instr) (op : DivOp) (b : Word) =>
      (∃ v, Config.arithFailure op (s.reg rs1) b = .fallback v ∧ WritesReg i s rde v) ∨
      (∃ id, Config.arithFailure op (s.reg rs1) b = .trap id ∧ RaisesInterrupt i s id)
    (SignedDivideFails (s.reg rs1) (s.reg rs2) →
      fails (.idivr rde rs1 rs2) .idiv (s.reg rs2) ∧ fails (.remr rde rs1 rs2) .rem (s.reg rs2) ∧
      fails (.modr rde rs1 rs2) .mod (s.reg rs2)) ∧
    (s.reg rs2 = 0 → fails (.udivr rde rs1 rs2) .udiv (s.reg rs2)) ∧
    (SignedDivideFails (s.reg rs1) (aluOperand .idiv imm) → fails (.idivi rde rs1 imm) .idiv (aluOperand .idiv imm)) ∧
    (SignedDivideFails (s.reg rs1) (aluOperand .rem imm) → fails (.remi rde rs1 imm) .rem (aluOperand .rem imm)) ∧
    (SignedDivideFails (s.reg rs1) (aluOperand .mod imm) → fails (.modi rde rs1 imm) .mod (aluOperand .mod imm)) ∧
    (aluOperand .udiv imm = 0 → fails (.udivi rde rs1 imm) .udiv (aluOperand .udiv imm))

/-! ### Floating point -/

/-- The arithmetic instructions: operands are the low bits of the registers, the result goes to the low bits of the
destination (R404 to R414, R461; logs 20 to 26). -/
def Obligations.FloatArithmeticInstructions : Prop :=
  ∀ (s : State) (rde rs1 rs2 : RegId),
    let half := fun r => (s.reg r).extractLsb' 0 16
    let single := fun r => (s.reg r).extractLsb' 0 32
    let double := fun r => s.reg r
    let h := fun i v => WritesReg i s rde (placeFloat .half (s.reg rde) v)
    let f := fun i v => WritesReg i s rde (placeFloat .single (s.reg rde) v)
    let d := fun i v => WritesReg i s rde v
    (h (.fnegF16 rde rs1) (floatNeg .half (half rs1)) ∧ f (.fnegF32 rde rs1) (floatNeg .single (single rs1)) ∧
      d (.fnegF64 rde rs1) (floatNeg .double (double rs1))) ∧
    (h (.fabsF16 rde rs1) (floatAbs .half (half rs1)) ∧ f (.fabsF32 rde rs1) (floatAbs .single (single rs1)) ∧
      d (.fabsF64 rde rs1) (floatAbs .double (double rs1))) ∧
    (h (.faddF16 rde rs1 rs2) (floatAdd .half (half rs1) (half rs2)) ∧
      f (.faddF32 rde rs1 rs2) (floatAdd .single (single rs1) (single rs2)) ∧
      d (.faddF64 rde rs1 rs2) (floatAdd .double (double rs1) (double rs2))) ∧
    (h (.fsubF16 rde rs1 rs2) (floatSub .half (half rs1) (half rs2)) ∧
      f (.fsubF32 rde rs1 rs2) (floatSub .single (single rs1) (single rs2)) ∧
      d (.fsubF64 rde rs1 rs2) (floatSub .double (double rs1) (double rs2))) ∧
    (h (.fmulF16 rde rs1 rs2) (floatMul .half (half rs1) (half rs2)) ∧
      f (.fmulF32 rde rs1 rs2) (floatMul .single (single rs1) (single rs2)) ∧
      d (.fmulF64 rde rs1 rs2) (floatMul .double (double rs1) (double rs2))) ∧
    (h (.fdivF16 rde rs1 rs2) (floatDiv .half (half rs1) (half rs2)) ∧
      f (.fdivF32 rde rs1 rs2) (floatDiv .single (single rs1) (single rs2)) ∧
      d (.fdivF64 rde rs1 rs2) (floatDiv .double (double rs1) (double rs2))) ∧
    (h (.fmaF16 rde rs1 rs2) (floatFma .half (half rde) (half rs1) (half rs2)) ∧
      f (.fmaF32 rde rs1 rs2) (floatFma .single (single rde) (single rs1) (single rs2)) ∧
      d (.fmaF64 rde rs1 rs2) (floatFma .double (double rde) (double rs1) (double rs2))) ∧
    (h (.fsqrtF16 rde rs1) (floatSqrt .half (half rs1)) ∧ f (.fsqrtF32 rde rs1) (floatSqrt .single (single rs1)) ∧
      d (.fsqrtF64 rde rs1) (floatSqrt .double (double rs1))) ∧
    (h (.fminF16 rde rs1 rs2) (floatMin .half (half rs1) (half rs2)) ∧
      f (.fminF32 rde rs1 rs2) (floatMin .single (single rs1) (single rs2)) ∧
      d (.fminF64 rde rs1 rs2) (floatMin .double (double rs1) (double rs2))) ∧
    (h (.fmaxF16 rde rs1 rs2) (floatMax .half (half rs1) (half rs2)) ∧
      f (.fmaxF32 rde rs1 rs2) (floatMax .single (single rs1) (single rs2)) ∧
      d (.fmaxF64 rde rs1 rs2) (floatMax .double (double rs1) (double rs2))) ∧
    (h (.fsatF16 rde rs1) (floatCeil .half (half rs1)) ∧ f (.fsatF32 rde rs1) (floatCeil .single (single rs1)) ∧
      d (.fsatF64 rde rs1) (floatCeil .double (double rs1)))

/-- The cast instructions and the NaN test (R402, R403, R415, R416, R461; logs 20, 25, 27). -/
def Obligations.FloatCastInstructions : Prop :=
  ∀ (s : State) (rde rs1 : RegId),
    let half := (s.reg rs1).extractLsb' 0 16
    let single := (s.reg rs1).extractLsb' 0 32
    let double := s.reg rs1
    let h := fun i v => WritesReg i s rde (placeFloat .half (s.reg rde) v)
    let f := fun i v => WritesReg i s rde (placeFloat .single (s.reg rde) v)
    let d := fun i v => WritesReg i s rde v
    (d (.ftoF16 rde rs1) (floatToInt .half half) ∧ d (.ftoF32 rde rs1) (floatToInt .single single) ∧
      d (.ftoF64 rde rs1) (floatToInt .double double)) ∧
    (h (.ffromF16 rde rs1) (floatFromInt .half (s.reg rs1)) ∧
      f (.ffromF32 rde rs1) (floatFromInt .single (s.reg rs1)) ∧
      d (.ffromF64 rde rs1) (floatFromInt .double (s.reg rs1))) ∧
    (h (.fcnvF16F16 rde rs1) half ∧ f (.fcnvF16F32 rde rs1) (floatCast .half .single half) ∧
      d (.fcnvF16F64 rde rs1) (floatCast .half .double half)) ∧
    (h (.fcnvF32F16 rde rs1) (floatCast .single .half single) ∧ f (.fcnvF32F32 rde rs1) single ∧
      d (.fcnvF32F64 rde rs1) (floatCast .single .double single)) ∧
    (h (.fcnvF64F16 rde rs1) (floatCast .double .half double) ∧
      f (.fcnvF64F32 rde rs1) (floatCast .double .single double) ∧ d (.fcnvF64F64 rde rs1) double) ∧
    d (.fnanF16 rde rs1) (if floatIsNan .half half = true then 1 else 0) ∧
    d (.fnanF32 rde rs1) (if floatIsNan .single single = true then 1 else 0) ∧
    d (.fnanF64 rde rs1) (if floatIsNan .double double = true then 1 else 0)

/-- The float compares complete, and their equal and less-than flags compare the values (R401, R460; log 6); with
a NaN both are false, which is the model's reading (log 34, PRESUMED). -/
def Obligations.FloatCompareInstructions : Prop :=
  (∀ (s : State) (rde rs1 : RegId),
    WritesFlags (.fcmpF16 rde rs1) s (floatCompareFlags .half (s.reg rde) (s.reg rs1)) ∧
    WritesFlags (.fcmpF32 rde rs1) s (floatCompareFlags .single (s.reg rde) (s.reg rs1)) ∧
    WritesFlags (.fcmpF64 rde rs1) s (floatCompareFlags .double (s.reg rde) (s.reg rs1))) ∧
  (∀ (p : FloatPrec) (x y : Word) (qx qy : ℚ),
    FloatIs p (x.extractLsb' 0 p.width) qx → FloatIs p (y.extractLsb' 0 p.width) qy →
    FloatPlain p (x.extractLsb' 0 p.width) → FloatPlain p (y.extractLsb' 0 p.width) →
    ((floatCompareFlags p x y).eq = true ↔ qx = qy) ∧ ((floatCompareFlags p x y).lt = true ↔ qx < qy)) ∧
  ∀ (p : FloatPrec) (x y : Word),
    floatIsNan p (x.extractLsb' 0 p.width) = true ∨ floatIsNan p (y.extractLsb' 0 p.width) = true →
    (floatCompareFlags p x y).eq = false ∧ (floatCompareFlags p x y).lt = false

/-- A result pattern fills the low bits of the container; the bits above are the destination's or zero, as
FLOAT_UPPER_BITS says (R461, D32; log 20). -/
def Obligations.FloatResultPlacement : Prop :=
  ∀ (p : FloatPrec) (old : Word) (pat : BitVec p.width),
    (placeFloat p old pat).extractLsb' 0 p.width = pat ∧
    ∀ k, p.width ≤ k → (placeFloat p old pat).getLsbD k =
      match Config.floatUpperBits with
      | .preserve => old.getLsbD k
      | .zero => false

/-- The cast is the identity when the precisions match, single to double to single gives the pattern back, the NaN test is
kept across precisions, and a value that both precisions have is converted to its pattern (R468). That no cast flushes a
subnormal, on which the identity on every pattern and the exact casts to and from subnormals rest, is the model's reading
(log 27, DEDUCED). -/
def Obligations.FloatCastRoundTrip : Prop :=
  (∀ (p : FloatPrec) (a : BitVec p.width), floatCast p p a = a) ∧
  (∀ a : BitVec FloatPrec.single.width, floatIsNan .single a = false →
    floatCast .double .single (floatCast .single .double a) = a) ∧
  (∀ (f t : FloatPrec) (a : BitVec f.width), floatIsNan t (floatCast f t a) = floatIsNan f a) ∧
  ∀ (f t : FloatPrec) (a : BitVec f.width) (b : BitVec t.width) (q : ℚ),
    FloatIs f a q → FloatIs t b q → q ≠ 0 → floatCast f t a = b

/-- Where the exact sum, difference, product, quotient, square root or multiply-add is the value of a pattern, the
operation gives that pattern, in every rounding mode (R465, R466; the IEEE reading is log 21). For a multiply-add that
rounds twice (log 24) the product must be the value of a pattern too. The root of a negative number is a NaN. -/
def Obligations.FloatExactResults : Prop :=
  (∀ (p : FloatPrec) (a b c : BitVec p.width) (qa qb qc : ℚ),
    FloatIs p a qa → FloatIs p b qb → FloatIs p c qc → FloatPlain p a → FloatPlain p b → FloatPlain p c → qc ≠ 0 →
    (qa + qb = qc → floatAdd p a b = c) ∧ (qa - qb = qc → floatSub p a b = c) ∧
    (qa * qb = qc → floatMul p a b = c) ∧ (qb ≠ 0 → qa / qb = qc → floatDiv p a b = c) ∧
    (0 < qb → qb * qb = qa → floatSqrt p a = b) ∧ (qa < 0 → floatIsNan p (floatSqrt p a) = true)) ∧
  ∀ (p : FloatPrec) (dest a b c : BitVec p.width) (qd qa qb qc : ℚ),
    FloatIs p dest qd → FloatIs p a qa → FloatIs p b qb → FloatIs p c qc →
    FloatPlain p dest → FloatPlain p a → FloatPlain p b → FloatPlain p c → qc ≠ 0 →
    (Config.fmaRoundsOnce p = true ∨ ∃ m, FloatIs p m (qa * qb) ∧ FloatPlain p m) →
    qd + qa * qb = qc → floatFma p dest a b = c

/-- NaN propagation: an operation with a NaN operand gives a NaN (R465; its payload is a parameter, log 22). -/
def Obligations.FloatNanPropagation : Prop :=
  (∀ (p : FloatPrec) (a : BitVec p.width), floatIsNan p a = true →
    floatIsNan p (floatNeg p a) = true ∧ floatIsNan p (floatAbs p a) = true ∧ floatIsNan p (floatSqrt p a) = true ∧
    floatIsNan p (floatCeil p a) = true) ∧
  (∀ (p : FloatPrec) (a b : BitVec p.width), floatIsNan p a = true ∨ floatIsNan p b = true →
    floatIsNan p (floatAdd p a b) = true ∧ floatIsNan p (floatSub p a b) = true ∧
    floatIsNan p (floatMul p a b) = true ∧ floatIsNan p (floatDiv p a b) = true) ∧
  ∀ (p : FloatPrec) (dest a b : BitVec p.width),
    floatIsNan p dest = true ∨ floatIsNan p a = true ∨ floatIsNan p b = true →
    floatIsNan p (floatFma p dest a b) = true

/-- R467: round up gives the smallest integral value that is not below the operand, at the same precision. -/
def Obligations.FloatCeiling : Prop :=
  ∀ (p : FloatPrec) (a : BitVec p.width) (q : ℚ), FloatIs p a q → FloatPlain p a → FloatIs p (floatCeil p a) ⌈q⌉

/-- The cast to an integer truncates toward zero, and gives 0 out of range, for infinities and for NaN; the cast from an
integer gives the pattern whose value the integer is, where the precision has one (R464). The integer type is a parameter
(D27; log 25), whose range and whose reading of a register the last two clauses say. That the integer 0 gives +0 is the
model's choice (log 25, DESIGN CHOICE). -/
def Obligations.FloatToInteger : Prop :=
  let bits := fun c : CastInt => match c.width with
    | .w8 => 8
    | .w16 => 16
    | .w32 => 32
    | .w64 => 64
  (∀ (p : FloatPrec) (a : BitVec p.width) (q : ℚ), FloatIs p a q → FloatPlain p a →
    let v := if 0 ≤ q then ⌊q⌋ else ⌈q⌉
    floatToInt p a = if castInRange (Config.castInt p) v = true then BitVec.ofInt 64 v else 0) ∧
  (∀ (p : FloatPrec) (a : BitVec p.width), floatExp p a = p.expMax → floatToInt p a = 0) ∧
  (∀ (p : FloatPrec) (x : Word) (b : BitVec p.width), castOperand (Config.castInt p) x ≠ 0 →
    FloatIs p b (castOperand (Config.castInt p) x) → floatFromInt p x = b) ∧
  (∀ (p : FloatPrec) (x : Word), castOperand (Config.castInt p) x = 0 → floatFromInt p x = 0) ∧
  (∀ (c : CastInt) (v : Int), castInRange c v = true ↔
    if c.signed = true then -2 ^ (bits c - 1) ≤ v ∧ v < 2 ^ (bits c - 1) else 0 ≤ v ∧ v < 2 ^ bits c) ∧
  ∀ (c : CastInt) (x : Word), castOperand c x =
    if c.signed = true then (x.toNat : Int).bmod (2 ^ bits c) else (x.toNat : Int) % 2 ^ bits c

/-- Minimum and maximum of two different finite numbers (R412, R413, R465; NaN and zeros are log 23). -/
def Obligations.FloatMinMax : Prop :=
  ∀ (p : FloatPrec) (a b : BitVec p.width) (qa qb : ℚ),
    FloatIs p a qa → FloatIs p b qb → FloatPlain p a → FloatPlain p b → qa < qb →
    floatMin p a b = a ∧ floatMin p b a = a ∧ floatMax p a b = b ∧ floatMax p b a = b

/-- Negate flips the sign bit and absolute value clears it, on every pattern that is not a NaN and is not flushed; a
flushed subnormal gives the zero with that sign (R404, R405, R465; logs 21, 22). So the value is negated, or made
absolute. -/
def Obligations.FloatSignOperations : Prop :=
  (∀ (p : FloatPrec) (a : BitVec p.width), floatIsNan p a = false →
    let kept := fun op k => if floatIsSubnormal p a = true ∧ Config.flushesOperands op p = true then false else a.getLsbD k
    (floatNeg p a).msb = !a.msb ∧ (floatAbs p a).msb = false ∧
    ∀ k, k + 1 < p.width → (floatNeg p a).getLsbD k = kept .fneg k ∧ (floatAbs p a).getLsbD k = kept .fabs k) ∧
  ∀ (p : FloatPrec) (a : BitVec p.width) (q : ℚ), FloatIs p a q → FloatPlain p a →
    FloatIs p (floatNeg p a) (-q) ∧ FloatIs p (floatAbs p a) |q|

/-- The tests of the float layer: the NaN test returns 1 or 0; the others return, for the answer to their question, the
container that the parameter FLOAT_NUMERICS gives that answer; whether the exact-zero test reads a subnormal as a zero is
part of that parameter (R460, R463, D25; log 36). That equality and less-than answer false with a NaN is the model's
reading (log 34, PRESUMED). -/
def Obligations.FloatTests : Prop :=
  ∀ (p : FloatPrec) (x y : Word),
    let a := x.extractLsb' 0 p.width
    let b := y.extractLsb' 0 p.width
    (∀ qa qb : ℚ, FloatIs p a qa → FloatIs p b qb → FloatPlain p a → FloatPlain p b →
      floatEqualTest p x y = Config.testResult .equal p (decide (qa = qb)) ∧
      floatLessTest p x y = Config.testResult .less p (decide (qa < qb))) ∧
    (floatIsNan p a = true ∨ floatIsNan p b = true →
      floatEqualTest p x y = Config.testResult .equal p false ∧
      floatLessTest p x y = Config.testResult .less p false) ∧
    floatSignTest p x = Config.testResult .signBit p (x.getLsbD (p.width - 1)) ∧
    (∀ qa : ℚ, FloatIs p a qa → floatZeroTest p x =
      Config.testResult .exactZero p
        (decide (qa = 0) || (floatIsSubnormal p a && Config.zeroTestFlushes p))) ∧
    (floatExp p a = p.expMax → floatZeroTest p x = Config.testResult .exactZero p false) ∧
    floatNanTest p a = if floatExp p a = p.expMax ∧ floatFrac p a ≠ 0 then 1 else 0

/-! ### The block under its parameters, and its port -/

/-- R131(a) under every lawful OPCODE_ASSIGNMENT, SUBCODE_ASSIGNMENT, FCNV_SPLIT and OPERAND_ROLES whose used fields hold
every operand of the instruction (R6, R126, D14; log 2): decoding an encoded instruction gives it back, with every
operand. -/
def Obligations.DecodeOfEncodeUnderAnyAssignment : Prop :=
  ∀ P : BlockParams, P.Lawful → P.CoversInstr → ∀ i : Instr, decodeWith P (encodeWith P i) = .some i

/-- The outputs of the decoder port (R142): the fields of the word's format, a field the format lacks reading 0, and the
immediate raw, zero-extended and sign-extended (R109), whether or not the sub-code is valid; the sub-code outputs where
the word carries that sub-code and it is assigned; nothing but `valid` and `fail_reason` for an unassigned opcode. -/
def Obligations.DecoderPortOutputs : Prop :=
  ∀ w : InstrWord,
    let op := (opcodeOf w).toNat
    let port := decoderPort w
    let nibble := fun lo => w.extractLsb' lo 4
    let outputs := fun (n : Nat) (fmt : Format) (rde rs1 rs2 func : Nibble) =>
      port.fmt = some fmt ∧ port.rde = some rde ∧ port.rs1 = some rs1 ∧ port.rs2 = some rs2 ∧ port.func = some func ∧
      port.imm = some ((w.extractLsb' 8 n).setWidth 20) ∧ port.uimm = some ((w.extractLsb' 8 n).setWidth 64) ∧
      port.simm = some ((w.extractLsb' 8 n).signExtend 64)
    ((0x11 ≤ op ∧ op ≤ 0x1B) ∨ (0x40 ≤ op ∧ op ≤ 0x4F) →
      outputs 8 .e (nibble 28) (nibble 24) (nibble 20) (nibble 16)) ∧
    (0x20 ≤ op ∧ op ≤ 0x3F ∧ op % 2 = 0 → outputs 12 .r (nibble 28) (nibble 24) (nibble 20) 0) ∧
    ((0x20 ≤ op ∧ op ≤ 0x3F ∧ op % 2 = 1) ∨ (0x02 ≤ op ∧ op ≤ 0x09) ∨ op = 0x0B ∨ op = 0x0C ∨ op = 0x1E →
      outputs 16 .m (nibble 28) (nibble 24) 0 0) ∧
    (op = 0x01 ∨ op = 0x10 ∨ op = 0x1F → outputs 16 .f (nibble 28) 0 0 (nibble 24)) ∧
    (op = 0x0A ∨ op = 0x0D ∨ op = 0x0E → outputs 20 .b 0 0 0 (nibble 28)) ∧
    (decode w = .none .badOpcode → port = { valid := false, failReason := 1 }) ∧
    (∀ r, decode w = .none r → port.valid = false ∧ port.failReason = r.code ∧ port.mnemonic = none) ∧
    (∀ i, decode w = .some i → port.valid = true ∧ port.failReason = 0 ∧ port.mnemonic = some i.mnemonic) ∧
    port.cond = (if op = 0x0A then BranchCond.ofCode? (nibble 28) else none) ∧
    port.litype = (if op = 0x10 then LiType.ofCode? (nibble 24) else none) ∧
    port.prec = (if 0x40 ≤ op ∧ op ≤ 0x4F ∧ op ≠ 0x4E then FloatPrec.ofCode? (nibble 16) else none) ∧
    port.precFrom = (if op = 0x4E then (fcnvSplit (nibble 16)).map Prod.fst else none) ∧
    port.precTo = (if op = 0x4E then (fcnvSplit (nibble 16)).map Prod.snd else none) ∧
    port.order = (if op = 0x1F then CompareOrder.ofCode? (nibble 24) else none) ∧
    port.intr = if op = 0x01 ∧ nibble 24 = 0 ∧ w.extractLsb' 16 8 = 0 then some (w.extractLsb' 8 8) else none

/-- R131 for variants, under every lawful value of the four parameters, the used fields of each variant among them (R6,
R126, R132, D14; log 2): (a) decoding an encoded variant whose operands lie in its used fields gives it back; (b), (c)
encoding a decoded variant gives the word with every field that is unused under those parameters zero, so a word that is
canonical under them itself. -/
def Obligations.VariantRoundTripsUnderAnyAssignment : Prop :=
  ∀ P : BlockParams, P.Lawful →
    (∀ v : Variant, v.operands.within (P.used v.head) → decodeVariant P (encodeVariant P v) = .ok v) ∧
    ∀ (w : InstrWord) (v : Variant), decodeVariant P w = .ok v →
      v.operands.within (P.used v.head) ∧ canonWith P w = some (encodeVariant P v) ∧
      (isCanonicalWith P w = true → encodeVariant P v = w)
end

