-- ==== Sys2Proof/Laws/Bits.lean ====
section
/-! SUPPORT. Laws/Bits: the bit-slice unit and sign extension, bit by bit. -/
namespace Sys2Proof

/-- Bit i of a field mask. -/
theorem fieldMask_getLsbD (n lo w i : Nat) :
    (fieldMask n lo w).getLsbD i = (decide (i < n) && (decide (lo ≤ i) && decide (i < lo + w))) := by
  by_cases h1 : i < n <;> by_cases h2 : lo ≤ i <;> by_cases h3 : i < lo + w <;>
    simp [fieldMask, BitVec.getLsbD_shiftLeft, BitVec.getLsbD_setWidth, BitVec.getLsbD_allOnes, h1, h2, h3] <;> omega

/-- Everything that a slice write does: the bits of the slice are the value's, all others are the container's. -/
theorem overwrite_getLsbD {n : Nat} (lo w : Nat) (c : BitVec n) (v : BitVec w) (i : Nat) (hi : i < n) :
    (overwrite lo w c v).getLsbD i = if lo ≤ i ∧ i < lo + w then v.getLsbD (i - lo) else c.getLsbD i := by
  simp only [overwrite, BitVec.getLsbD_or, BitVec.getLsbD_and, BitVec.getLsbD_not, fieldMask_getLsbD,
    BitVec.getLsbD_shiftLeft, BitVec.getLsbD_setWidth]
  by_cases h2 : lo ≤ i <;> by_cases h3 : i < lo + w
  · have e1 : ¬(i < lo) := by omega
    have e2 : i - lo < w := by omega
    have e3 : i - lo < n := by omega
    simp [hi, h2, h3, e1, e3]
  all_goals simp [hi, h2, h3]

/-- Everything that sign extension does: bits below n are kept, the others copy bit n - 1. -/
theorem sext_getLsbD (n : Nat) (h1 : 1 ≤ n) (h2 : n ≤ 64) (v : Word) (i : Nat) (hi : i < 64) :
    (sext n v).getLsbD i = if i < n then v.getLsbD i else v.getLsbD (n - 1) := by
  unfold sext
  rw [BitVec.getLsbD_sshiftRight]
  simp only [BitVec.msb_eq_getLsbD_last, BitVec.getLsbD_shiftLeft]
  by_cases h : i < n
  · have e1 : 64 - n + i < 64 := by omega
    simp [h, e1, hi]
  · have e1 : ¬(64 - n + i < 64) := by omega
    have e2 : 63 - (64 - n) = n - 1 := by omega
    have e3 : ¬(63 < 64 - n) := by omega
    have e4 : ¬(64 ≤ i) := by omega
    simp [h, e1, e2, e3, e4]

/-- The sign-extended immediate is the two's-complement reading of the raw one (R109). -/
theorem simm_eq_signExtend {n : Nat} (h1 : 1 ≤ n) (h2 : n ≤ 64) (imm : BitVec n) : simm imm = imm.signExtend 64 := by
  apply BitVec.eq_of_getLsbD_eq
  intro i hi
  unfold simm
  rw [sext_getLsbD n h1 h2 _ i hi, BitVec.getLsbD_signExtend]
  by_cases h : i < n
  · simp [h, hi]
  · simp [h, hi, BitVec.msb_eq_getLsbD_last]; omega

end Sys2Proof
end

