-- ==== Sys2Proof/Laws/Coding.lean ====
section
/-! SUPPORT. Laws/Coding: everything that packing fields does, the roles of the register fields, and that the default
parameters of the block are lawful (R6, R106, R132). -/
namespace Sys2Proof

/-- The bits of an opcode under fields that start at bit 8. -/
theorem opcodeOf_or (x : InstrWord) (op : BitVec 8) (h : ∀ i, i < 8 → x.getLsbD i = false) :
    opcodeOf (x ||| op.setWidth 32) = op := by
  apply BitVec.eq_of_getLsbD_eq
  intro i hi
  have : i < 32 := by omega
  have hx := h i hi
  rw [BitVec.getLsbD_eq_getElem this] at hx
  simp [opcodeOf, hx, hi, this]

/-- The low byte of packed fields is the opcode (R106). -/
theorem opcodeOf_packFields (fmt : Format) (f : Fields) (op : BitVec 8) : opcodeOf (packFields fmt f op) = op := by
  cases fmt <;> refine opcodeOf_or _ op fun i hi => ?_ <;>
    simp [BitVec.getLsbD_shiftLeft, hi] <;> omega

/-- A field of selected operands is the field its role names. -/
@[simp] theorem Fields.nibble_select (f : Fields) (r : Equiv.Perm NibbleField) (n : NibbleField) :
    (f.select r).nibble n = f.nibble (r n) := by
  cases n <;> rfl

/-- Selecting keeps the immediate. -/
@[simp] theorem Fields.imm_select (f : Fields) (r : Equiv.Perm NibbleField) : (f.select r).imm = f.imm := rfl

/-- Two records with the same 4-bit fields and the same immediate are equal. -/
theorem Fields.ext_nibble {f g : Fields} (h : ∀ n, f.nibble n = g.nibble n) (hi : f.imm = g.imm) : f = g := by
  obtain ⟨_, _, _, _, _⟩ := f
  obtain ⟨_, _, _, _, _⟩ := g
  simp only [Fields.mk.injEq]
  exact ⟨h .rde, h .rs1, h .rs2, h .func, hi⟩

/-- Placing operands in fields and selecting them again gives them back, whatever the roles. -/
@[simp] theorem Fields.select_place (f : Fields) (r : Equiv.Perm NibbleField) : (f.place r).select r = f :=
  Fields.ext_nibble (by simp [Fields.place]) rfl

/-- Selecting operands and placing them again gives the fields back, whatever the roles. -/
@[simp] theorem Fields.place_select (f : Fields) (r : Equiv.Perm NibbleField) : (f.select r).place r = f :=
  Fields.ext_nibble (by simp [Fields.place]) rfl

/-- With every operand in the field of its name, placing does nothing. -/
@[simp] theorem Fields.place_refl (f : Fields) : f.place (Equiv.refl _) = f := rfl

/-- With every operand in the field of its name, selecting does nothing. -/
@[simp] theorem Fields.select_refl (f : Fields) : f.select (Equiv.refl _) = f := rfl

/-- A record lies within itself. -/
@[simp] theorem Fields.mask_self (f : Fields) : f.mask f = f := by
  simp [Fields.mask]

/-- An instruction is made of what it is and its operands. -/
@[simp] theorem Instr.toInstr_head (i : Instr) : i.head.toInstr i.operands = i := by
  cases i <;> first | rfl | simp [Instr.head, Instr.operands, Head.toInstr, portToField, portOfField, intIdToField]

/-- A table of sub-codes reads the same both ways if each of its values and each of its 16 nibbles does. -/
theorem SubcodeTable.lawful_of {α : Type} [DecidableEq α] (T : SubcodeTable α) (h : ∀ a, T.ofCode? (T.code a) = some a)
    (g : ∀ n, ((T.ofCode? n).all fun a => T.code a == n) = true) : T.Lawful := by
  refine ⟨h, fun n a hn => ?_⟩
  have := g n
  rw [hn] at this
  simpa using this

/-- The default opcodes read the same both ways (R120). -/
theorem defaultKindOf_check : ∀ op, ((defaultKindOf op).all fun k => k.defaultOpcode == op) = true := by decide

/-- The default opcode of a kind selects that kind (R120). -/
theorem defaultKindOf_defaultOpcode (k : OpKind) : defaultKindOf k.defaultOpcode = some k := by
  match k with
  | .single m => cases m <;> first | rfl | (rename_i a; cases a <;> rfl)
  | .sysctl | .branch | .loadImm | .cmpi | .fcnv => rfl
  | .float op => cases op <;> rfl

/-- The default used fields: their format has them and the dispatch fields, no bit is both. -/
theorem defaultUsed_fits (h : Head) :
    ((defaultParams.used h).union h.dispatchMask).within (defaultParams.formatOf h.kind).mask ∧
    (defaultParams.used h).mask h.dispatchMask = {} := by
  match h with
  | .single m => cases m <;> first | exact ⟨rfl, rfl⟩ | (rename_i a; cases a <;> exact ⟨rfl, rfl⟩)
  | .sysctl op => cases op <;> exact ⟨rfl, rfl⟩
  | .branch c => cases c <;> exact ⟨rfl, rfl⟩
  | .loadImm t => cases t <;> exact ⟨rfl, rfl⟩
  | .cmpi o => cases o <;> exact ⟨rfl, rfl⟩
  | .fcnv f t => cases f <;> cases t <;> exact ⟨rfl, rfl⟩
  | .float op p => cases op <;> cases p <;> exact ⟨rfl, rfl⟩

/-- The default parameters keep what the source fixes (R6, R111, R115, R117, R121, R132). -/
theorem defaultParams_lawful : defaultParams.Lawful where
  kindOf_opcode := defaultKindOf_defaultOpcode
  opcode_kindOf := by
    intro op k h
    have check := defaultKindOf_check op
    rw [show defaultKindOf op = some k from h] at check
    exact eq_of_beq check
  family := by decide
  parity := by
    intro a
    cases a <;> decide
  sysctl := SubcodeTable.lawful_of _ (by intro a; cases a <;> rfl) (by decide)
  intCode := rfl
  cond := SubcodeTable.lawful_of _ (by intro a; cases a <;> rfl) (by decide)
  condSeven := rfl
  liType := SubcodeTable.lawful_of _ (by intro a; cases a <;> rfl) (by decide)
  prec := SubcodeTable.lawful_of _ (by intro a; cases a <;> rfl) (by decide)
  order := SubcodeTable.lawful_of _ (by intro a; cases a <;> rfl) (by decide)
  fcnv := SubcodeTable.lawful_of _ (by rintro ⟨a, b⟩; cases a <;> cases b <;> rfl) (by decide)
  fields h := (defaultUsed_fits h).1
  disjoint h := (defaultUsed_fits h).2

/-- At the default, every operand of an instruction is in a used field (R132). -/
theorem defaultParams_coversInstr : defaultParams.CoversInstr := fun h => by
  rw [show defaultParams.roles h = Equiv.refl _ from rfl, Fields.place_refl]
  exact h.defaultUsed.mask_self

/-- The bits that an instruction's row of the opcode table does not mark unused are those of its used fields (R132,
R134). -/
theorem usedMask_row (i : Instr) : usedMask defaultParams i.head = i.row.used := by
  cases i <;> simp only [Instr.head, Instr.row] <;> first | decide | (rename_i o _ _; cases o <;> decide)

end Sys2Proof
end

