-- ==== Sys2Proof/Laws/State.lean ====
section
/-! SUPPORT. Laws/State: one lemma for each field of the state and each update, and what a register reads as after a
write, so that no later proof unfolds a record update. -/
namespace Sys2Proof.Machine

/-! ### `setReg` -/

@[simp] theorem State.setReg_regs (s : State) (r : RegId) (v : Word) :
    (s.setReg r v).regs = s.regs.set r.toNat v r.isLt := rfl
@[simp] theorem State.setReg_pc (s : State) (r : RegId) (v : Word) : (s.setReg r v).pc = s.pc := rfl
@[simp] theorem State.setReg_flags (s : State) (r : RegId) (v : Word) : (s.setReg r v).flags = s.flags := rfl
@[simp] theorem State.setReg_mode (s : State) (r : RegId) (v : Word) : (s.setReg r v).mode = s.mode := rfl
@[simp] theorem State.setReg_mem (s : State) (r : RegId) (v : Word) : (s.setReg r v).mem = s.mem := rfl
@[simp] theorem State.setReg_intCmds (s : State) (r : RegId) (v : Word) : (s.setReg r v).intCmds = s.intCmds := rfl
@[simp] theorem State.setReg_portOuts (s : State) (r : RegId) (v : Word) : (s.setReg r v).portOuts = s.portOuts := rfl
@[simp] theorem State.setReg_draws (s : State) (r : RegId) (v : Word) : (s.setReg r v).draws = s.draws := rfl
@[simp] theorem State.setReg_readByte (s : State) (r : RegId) (v : Word) (x : Word) : (s.setReg r v).readByte x = s.readByte x := rfl
@[simp] theorem State.setReg_memRead (s : State) (r : RegId) (v : Word) (x : Word) (k : Nat) :
    (s.setReg r v).memRead x k = s.memRead x k := rfl

/-! ### `setPc` -/

@[simp] theorem State.setPc_regs (s : State) (v : Word) : (s.setPc v).regs = s.regs := rfl
@[simp] theorem State.setPc_pc (s : State) (v : Word) : (s.setPc v).pc = v := rfl
@[simp] theorem State.setPc_flags (s : State) (v : Word) : (s.setPc v).flags = s.flags := rfl
@[simp] theorem State.setPc_mode (s : State) (v : Word) : (s.setPc v).mode = s.mode := rfl
@[simp] theorem State.setPc_mem (s : State) (v : Word) : (s.setPc v).mem = s.mem := rfl
@[simp] theorem State.setPc_intCmds (s : State) (v : Word) : (s.setPc v).intCmds = s.intCmds := rfl
@[simp] theorem State.setPc_portOuts (s : State) (v : Word) : (s.setPc v).portOuts = s.portOuts := rfl
@[simp] theorem State.setPc_draws (s : State) (v : Word) : (s.setPc v).draws = s.draws := rfl
@[simp] theorem State.setPc_reg (s : State) (v : Word) (q : RegId) : (s.setPc v).reg q = s.reg q := rfl
@[simp] theorem State.setPc_readByte (s : State) (v : Word) (x : Word) : (s.setPc v).readByte x = s.readByte x := rfl
@[simp] theorem State.setPc_memRead (s : State) (v : Word) (x : Word) (k : Nat) :
    (s.setPc v).memRead x k = s.memRead x k := rfl

/-! ### `setFlags` -/

@[simp] theorem State.setFlags_regs (s : State) (f : Flags) : (s.setFlags f).regs = s.regs := rfl
@[simp] theorem State.setFlags_pc (s : State) (f : Flags) : (s.setFlags f).pc = s.pc := rfl
@[simp] theorem State.setFlags_flags (s : State) (f : Flags) : (s.setFlags f).flags = f := rfl
@[simp] theorem State.setFlags_mode (s : State) (f : Flags) : (s.setFlags f).mode = s.mode := rfl
@[simp] theorem State.setFlags_mem (s : State) (f : Flags) : (s.setFlags f).mem = s.mem := rfl
@[simp] theorem State.setFlags_intCmds (s : State) (f : Flags) : (s.setFlags f).intCmds = s.intCmds := rfl
@[simp] theorem State.setFlags_portOuts (s : State) (f : Flags) : (s.setFlags f).portOuts = s.portOuts := rfl
@[simp] theorem State.setFlags_draws (s : State) (f : Flags) : (s.setFlags f).draws = s.draws := rfl
@[simp] theorem State.setFlags_reg (s : State) (f : Flags) (q : RegId) : (s.setFlags f).reg q = s.reg q := rfl
@[simp] theorem State.setFlags_readByte (s : State) (f : Flags) (x : Word) : (s.setFlags f).readByte x = s.readByte x := rfl
@[simp] theorem State.setFlags_memRead (s : State) (f : Flags) (x : Word) (k : Nat) :
    (s.setFlags f).memRead x k = s.memRead x k := rfl

/-! ### `setMode` -/

@[simp] theorem State.setMode_regs (s : State) (m : Mode) : (s.setMode m).regs = s.regs := rfl
@[simp] theorem State.setMode_pc (s : State) (m : Mode) : (s.setMode m).pc = s.pc := rfl
@[simp] theorem State.setMode_flags (s : State) (m : Mode) : (s.setMode m).flags = s.flags := rfl
@[simp] theorem State.setMode_mode (s : State) (m : Mode) : (s.setMode m).mode = m := rfl
@[simp] theorem State.setMode_mem (s : State) (m : Mode) : (s.setMode m).mem = s.mem := rfl
@[simp] theorem State.setMode_intCmds (s : State) (m : Mode) : (s.setMode m).intCmds = s.intCmds := rfl
@[simp] theorem State.setMode_portOuts (s : State) (m : Mode) : (s.setMode m).portOuts = s.portOuts := rfl
@[simp] theorem State.setMode_draws (s : State) (m : Mode) : (s.setMode m).draws = s.draws := rfl
@[simp] theorem State.setMode_reg (s : State) (m : Mode) (q : RegId) : (s.setMode m).reg q = s.reg q := rfl
@[simp] theorem State.setMode_readByte (s : State) (m : Mode) (x : Word) : (s.setMode m).readByte x = s.readByte x := rfl
@[simp] theorem State.setMode_memRead (s : State) (m : Mode) (x : Word) (k : Nat) :
    (s.setMode m).memRead x k = s.memRead x k := rfl

/-! ### `memWrite` -/

@[simp] theorem State.memWrite_regs (s : State) (a : Word) (n : Nat) (v : Word) :
    (s.memWrite a n v).regs = s.regs := rfl
@[simp] theorem State.memWrite_pc (s : State) (a : Word) (n : Nat) (v : Word) : (s.memWrite a n v).pc = s.pc := rfl
@[simp] theorem State.memWrite_flags (s : State) (a : Word) (n : Nat) (v : Word) :
    (s.memWrite a n v).flags = s.flags := rfl
@[simp] theorem State.memWrite_mode (s : State) (a : Word) (n : Nat) (v : Word) :
    (s.memWrite a n v).mode = s.mode := rfl
@[simp] theorem State.memWrite_mem (s : State) (a : Word) (n : Nat) (v : Word) :
    (s.memWrite a n v).mem = Memory.writeDatum s.mem a n v := rfl
@[simp] theorem State.memWrite_intCmds (s : State) (a : Word) (n : Nat) (v : Word) :
    (s.memWrite a n v).intCmds = s.intCmds := rfl
@[simp] theorem State.memWrite_portOuts (s : State) (a : Word) (n : Nat) (v : Word) :
    (s.memWrite a n v).portOuts = s.portOuts := rfl
@[simp] theorem State.memWrite_draws (s : State) (a : Word) (n : Nat) (v : Word) :
    (s.memWrite a n v).draws = s.draws := rfl
@[simp] theorem State.memWrite_reg (s : State) (a : Word) (n : Nat) (v : Word) (q : RegId) : (s.memWrite a n v).reg q = s.reg q := rfl

/-! ### `placeWord` -/

@[simp] theorem State.placeWord_regs (s : State) (w : InstrWord) : (s.placeWord w).regs = s.regs := rfl
@[simp] theorem State.placeWord_pc (s : State) (w : InstrWord) : (s.placeWord w).pc = s.pc := rfl
@[simp] theorem State.placeWord_flags (s : State) (w : InstrWord) : (s.placeWord w).flags = s.flags := rfl
@[simp] theorem State.placeWord_mode (s : State) (w : InstrWord) : (s.placeWord w).mode = s.mode := rfl
@[simp] theorem State.placeWord_mem (s : State) (w : InstrWord) :
    (s.placeWord w).mem =
      Memory.writeBytes s.mem s.pc [byteOfWord 0 w, byteOfWord 1 w, byteOfWord 2 w, byteOfWord 3 w] := rfl
@[simp] theorem State.placeWord_intCmds (s : State) (w : InstrWord) : (s.placeWord w).intCmds = s.intCmds := rfl
@[simp] theorem State.placeWord_portOuts (s : State) (w : InstrWord) : (s.placeWord w).portOuts = s.portOuts := rfl
@[simp] theorem State.placeWord_draws (s : State) (w : InstrWord) : (s.placeWord w).draws = s.draws := rfl
@[simp] theorem State.placeWord_reg (s : State) (w : InstrWord) (q : RegId) : (s.placeWord w).reg q = s.reg q := rfl

/-! ### `draw` -/

@[simp] theorem State.draw_regs (s : State) : s.draw.regs = s.regs := rfl
@[simp] theorem State.draw_pc (s : State) : s.draw.pc = s.pc := rfl
@[simp] theorem State.draw_flags (s : State) : s.draw.flags = s.flags := rfl
@[simp] theorem State.draw_mode (s : State) : s.draw.mode = s.mode := rfl
@[simp] theorem State.draw_mem (s : State) : s.draw.mem = s.mem := rfl
@[simp] theorem State.draw_intCmds (s : State) : s.draw.intCmds = s.intCmds := rfl
@[simp] theorem State.draw_portOuts (s : State) : s.draw.portOuts = s.portOuts := rfl
@[simp] theorem State.draw_draws (s : State) : s.draw.draws = s.draws + 1 := rfl
@[simp] theorem State.draw_reg (s : State) (q : RegId) : s.draw.reg q = s.reg q := rfl
@[simp] theorem State.draw_readByte (s : State) (x : Word) : s.draw.readByte x = s.readByte x := rfl
@[simp] theorem State.draw_memRead (s : State) (x : Word) (k : Nat) :
    s.draw.memRead x k = s.memRead x k := rfl

/-! ### `portWrite` -/

@[simp] theorem State.portWrite_regs (s : State) (p : Port) (v : Word) : (s.portWrite p v).regs = s.regs := rfl
@[simp] theorem State.portWrite_pc (s : State) (p : Port) (v : Word) : (s.portWrite p v).pc = s.pc := rfl
@[simp] theorem State.portWrite_flags (s : State) (p : Port) (v : Word) : (s.portWrite p v).flags = s.flags := rfl
@[simp] theorem State.portWrite_mode (s : State) (p : Port) (v : Word) : (s.portWrite p v).mode = s.mode := rfl
@[simp] theorem State.portWrite_mem (s : State) (p : Port) (v : Word) : (s.portWrite p v).mem = s.mem := rfl
@[simp] theorem State.portWrite_intCmds (s : State) (p : Port) (v : Word) : (s.portWrite p v).intCmds = s.intCmds := rfl
@[simp] theorem State.portWrite_portOuts (s : State) (p : Port) (v : Word) :
    (s.portWrite p v).portOuts = s.portOuts ++ [{ port := p, value := v }] := rfl
@[simp] theorem State.portWrite_draws (s : State) (p : Port) (v : Word) : (s.portWrite p v).draws = s.draws := rfl
@[simp] theorem State.portWrite_reg (s : State) (p : Port) (v : Word) (q : RegId) : (s.portWrite p v).reg q = s.reg q := rfl
@[simp] theorem State.portWrite_readByte (s : State) (p : Port) (v : Word) (x : Word) : (s.portWrite p v).readByte x = s.readByte x := rfl
@[simp] theorem State.portWrite_memRead (s : State) (p : Port) (v : Word) (x : Word) (k : Nat) :
    (s.portWrite p v).memRead x k = s.memRead x k := rfl

/-! ### `sendInt` -/

@[simp] theorem State.sendInt_regs (s : State) (c : IntCommand) : (s.sendInt c).regs = s.regs := rfl
@[simp] theorem State.sendInt_pc (s : State) (c : IntCommand) : (s.sendInt c).pc = s.pc := rfl
@[simp] theorem State.sendInt_flags (s : State) (c : IntCommand) : (s.sendInt c).flags = s.flags := rfl
@[simp] theorem State.sendInt_mode (s : State) (c : IntCommand) : (s.sendInt c).mode = s.mode := rfl
@[simp] theorem State.sendInt_mem (s : State) (c : IntCommand) : (s.sendInt c).mem = s.mem := rfl
@[simp] theorem State.sendInt_intCmds (s : State) (c : IntCommand) : (s.sendInt c).intCmds = s.intCmds ++ [c] := rfl
@[simp] theorem State.sendInt_portOuts (s : State) (c : IntCommand) : (s.sendInt c).portOuts = s.portOuts := rfl
@[simp] theorem State.sendInt_draws (s : State) (c : IntCommand) : (s.sendInt c).draws = s.draws := rfl
@[simp] theorem State.sendInt_reg (s : State) (c : IntCommand) (q : RegId) : (s.sendInt c).reg q = s.reg q := rfl
@[simp] theorem State.sendInt_readByte (s : State) (c : IntCommand) (x : Word) : (s.sendInt c).readByte x = s.readByte x := rfl
@[simp] theorem State.sendInt_memRead (s : State) (c : IntCommand) (x : Word) (k : Nat) :
    (s.sendInt c).memRead x k = s.memRead x k := rfl

/-! ### `advance` -/

@[simp] theorem State.advance_regs (s : State) : s.advance.regs = s.regs := rfl
@[simp] theorem State.advance_pc (s : State) : s.advance.pc = s.pc + 4 := rfl
@[simp] theorem State.advance_flags (s : State) : s.advance.flags = s.flags := rfl
@[simp] theorem State.advance_mode (s : State) : s.advance.mode = s.mode := rfl
@[simp] theorem State.advance_mem (s : State) : s.advance.mem = s.mem := rfl
@[simp] theorem State.advance_intCmds (s : State) : s.advance.intCmds = s.intCmds := rfl
@[simp] theorem State.advance_portOuts (s : State) : s.advance.portOuts = s.portOuts := rfl
@[simp] theorem State.advance_draws (s : State) : s.advance.draws = s.draws := rfl
@[simp] theorem State.advance_reg (s : State) (q : RegId) : s.advance.reg q = s.reg q := rfl
@[simp] theorem State.advance_readByte (s : State) (x : Word) : s.advance.readByte x = s.readByte x := rfl
@[simp] theorem State.advance_memRead (s : State) (x : Word) (k : Nat) :
    s.advance.memRead x k = s.memRead x k := rfl

/-! ### Registers -/

/-- What a register reads as after a register is written. -/
theorem State.reg_setReg (s : State) (r : RegId) (v : Word) (q : RegId) :
    (s.setReg r v).reg q = if q = r then v else s.reg q := by
  by_cases h : q = r
  · subst h; simp [State.reg, State.setReg]
  · have : r.toNat ≠ q.toNat := fun e => h (BitVec.eq_of_toNat_eq e.symm)
    simp [State.reg, State.setReg, h, this]

@[simp] theorem State.reg_setReg_same (s : State) (r : RegId) (v : Word) : (s.setReg r v).reg r = v := by
  simp [State.reg_setReg]

theorem State.reg_setReg_ne (s : State) (r q : RegId) (v : Word) (h : q ≠ r) : (s.setReg r v).reg q = s.reg q := by
  simp [State.reg_setReg, h]

/-- Two register files that read alike are equal. -/
theorem State.regs_ext (s t : State) (h : ∀ r, t.reg r = s.reg r) : t.regs = s.regs := by
  apply Vector.ext
  intro i hi
  have := h (BitVec.ofNat 4 i)
  simpa [State.reg, Nat.mod_eq_of_lt hi] using this

/-! ### The shared operations, each as one equation -/

/-- Everything that raising an interrupt does (R201; log 14). -/
theorem State.takeTrap_eq (s : State) (id : IntId) :
    s.takeTrap id = { s with
      intCmds := s.intCmds ++ [.raised id], pc := Config.trapTarget id s.draws, mode := Config.trapMode id s.draws,
      draws := s.draws + 1 } := rfl

/-- Everything that returning from an interrupt does (R202; log 15). -/
theorem State.returnFromTrap_eq (s : State) :
    s.returnFromTrap = { s with
      intCmds := s.intCmds ++ [.returned], pc := Config.iretTarget s.draws, mode := Config.iretMode s.draws,
      draws := s.draws + 1 } := rfl

/-- An arithmetic failure either writes a fallback and goes on, or raises an interrupt (R444; log 18). -/
theorem State.arithFail_cases (s : State) (op : DivOp) (a b : Word) (rde : RegId) :
    (∃ v, Config.arithFailure op a b = .fallback v ∧ s.arithFail op a b rde = (s.setReg rde v).advance) ∨
    (∃ id, Config.arithFailure op a b = .trap id ∧ s.arithFail op a b rde = s.takeTrap id) := by
  unfold State.arithFail
  cases h : Config.arithFailure op a b with
  | fallback v => exact .inl ⟨v, rfl, rfl⟩
  | trap id => exact .inr ⟨id, rfl, rfl⟩

/-- A push lowers the stack pointer by 8 and writes 8 bytes there (R271; log 9). -/
theorem State.pushWord_eq (s : State) (v : Word) :
    s.pushWord v = (s.setReg spReg (s.reg spReg - 8)).memWrite (s.reg spReg - 8) 8 v := rfl

/-- A pop writes the register first and raises the stack pointer after (R272; log 9). -/
theorem State.popReg_eq (s : State) (r : RegId) :
    s.popReg r = (s.setReg r (s.memRead (s.reg spReg) 8)).setReg spReg
      ((s.setReg r (s.memRead (s.reg spReg) 8)).reg spReg + 8) := rfl

/-- An input writes the register and draws one free value (R208, R209; log 13). -/
theorem State.inputTo_eq (s : State) (rde : RegId) (p : Port) :
    s.inputTo rde p = ((s.setReg rde (Config.portInput p s.draws)).draw).advance := rfl

end Sys2Proof.Machine
end

