-- ==== Sys2Proof/Laws/Effects.lean ====
section
/-! SUPPORT. Laws/Effects: everything that each shared operation of the instruction families can do, each said once. -/
namespace Sys2Proof.Machine

/-- An ALU result goes to a register and the next instruction follows (R350). -/
theorem State.aluTo_eq (s : State) (rde : RegId) (v : Word) : s.aluTo rde v = (s.setReg rde v).advance := rfl

/-- A loaded value goes to a register and the next instruction follows (R310). -/
theorem State.loadTo_eq (s : State) (rde : RegId) (v : Word) : s.loadTo rde v = (s.setReg rde v).advance := rfl

/-- A float result goes to a register and the next instruction follows (R461; log 20). -/
theorem State.floatTo_eq (s : State) (p : FloatPrec) (rde : RegId) (pat : BitVec p.width) :
    s.floatTo p rde pat = (s.setReg rde (placeFloat p (s.reg rde) pat)).advance := rfl

/-- A float compare sets the flags and the next instruction follows (R401). -/
theorem State.floatCompare_eq (s : State) (p : FloatPrec) (rde rs1 : RegId) :
    s.floatCompare p rde rs1 = (s.setFlags (floatCompareFlags p (s.reg rde) (s.reg rs1))).advance := rfl

/-- A plain load-immediate writes one slice of a register and the next instruction follows (R291). -/
theorem State.loadImmPlain_eq (s : State) (rde : RegId) (k : Nat) (imm : BitVec 16) :
    s.loadImmPlain rde k imm = (s.setReg rde (overwrite (16 * k) 16 (s.reg rde) imm)).advance := rfl

/-- A sign-extending load-immediate writes a whole register and the next instruction follows (R292). -/
theorem State.loadImmSigned_eq (s : State) (rde : RegId) (k : Nat) (imm : BitVec 16) :
    s.loadImmSigned rde k imm = (s.setReg rde (sext (16 * (k + 1)) (uimm imm <<< (16 * k)))).advance := rfl

/-- A branch only sets pc: to its target, or to the next instruction (R236; log 8). -/
theorem State.branchIf_eq (s : State) (c : BranchCond) (imm : BitVec 20) :
    s.branchIf c imm = s.setPc (if condHolds c s.flags = true then s.branchTarget imm else s.pc + 4) := by
  unfold State.branchIf State.advance State.nextPc
  split <;> rfl

/-- Pushing the return address (R231; log 8). -/
theorem State.pushReturn_eq (s : State) : s.pushReturn = s.pushWord (s.pc + 4) := rfl

/-- A division writes its result, or its fallback, or raises an interrupt (R444; log 18). -/
theorem State.divTo_cases (s : State) (op : DivOp) (a b : Word) (r : Option Word) (rde : RegId) :
    (∃ v, r = some v ∧ s.divTo op a b r rde = (s.setReg rde v).advance) ∨
    (∃ v, r = none ∧ Config.arithFailure op a b = .fallback v ∧ s.divTo op a b r rde = (s.setReg rde v).advance) ∨
    (∃ id, r = none ∧ Config.arithFailure op a b = .trap id ∧ s.divTo op a b r rde = s.takeTrap id) := by
  cases r with
  | some v => exact .inl ⟨v, rfl, rfl⟩
  | none =>
    rcases s.arithFail_cases op a b rde with ⟨v, h, e⟩ | ⟨id, h, e⟩
    · exact .inr (.inl ⟨v, rfl, h, e⟩)
    · exact .inr (.inr ⟨id, rfl, h, e⟩)

/-! ### What each of them leaves alone, field by field -/

@[simp] theorem State.branchIf_regs (s : State) (c : BranchCond) (imm : BitVec 20) : (s.branchIf c imm).regs = s.regs := by
  simp [State.branchIf_eq]
@[simp] theorem State.branchIf_flags (s : State) (c : BranchCond) (imm : BitVec 20) :
    (s.branchIf c imm).flags = s.flags := by simp [State.branchIf_eq]
@[simp] theorem State.branchIf_mode (s : State) (c : BranchCond) (imm : BitVec 20) : (s.branchIf c imm).mode = s.mode := by
  simp [State.branchIf_eq]
@[simp] theorem State.branchIf_mem (s : State) (c : BranchCond) (imm : BitVec 20) : (s.branchIf c imm).mem = s.mem := by
  simp [State.branchIf_eq]
@[simp] theorem State.branchIf_intCmds (s : State) (c : BranchCond) (imm : BitVec 20) :
    (s.branchIf c imm).intCmds = s.intCmds := by simp [State.branchIf_eq]
@[simp] theorem State.branchIf_portOuts (s : State) (c : BranchCond) (imm : BitVec 20) :
    (s.branchIf c imm).portOuts = s.portOuts := by simp [State.branchIf_eq]
@[simp] theorem State.branchIf_draws (s : State) (c : BranchCond) (imm : BitVec 20) :
    (s.branchIf c imm).draws = s.draws := by simp [State.branchIf_eq]

@[simp] theorem State.takeTrap_regs (s : State) (id : IntId) : (s.takeTrap id).regs = s.regs := rfl
@[simp] theorem State.takeTrap_flags (s : State) (id : IntId) : (s.takeTrap id).flags = s.flags := rfl
@[simp] theorem State.takeTrap_mem (s : State) (id : IntId) : (s.takeTrap id).mem = s.mem := rfl
@[simp] theorem State.takeTrap_portOuts (s : State) (id : IntId) : (s.takeTrap id).portOuts = s.portOuts := rfl
@[simp] theorem State.takeTrap_intCmds (s : State) (id : IntId) :
    (s.takeTrap id).intCmds = s.intCmds ++ [.raised id] := rfl
@[simp] theorem State.takeTrap_draws (s : State) (id : IntId) : (s.takeTrap id).draws = s.draws + 1 := rfl

@[simp] theorem State.returnFromTrap_regs (s : State) : s.returnFromTrap.regs = s.regs := rfl
@[simp] theorem State.returnFromTrap_flags (s : State) : s.returnFromTrap.flags = s.flags := rfl
@[simp] theorem State.returnFromTrap_mem (s : State) : s.returnFromTrap.mem = s.mem := rfl
@[simp] theorem State.returnFromTrap_portOuts (s : State) : s.returnFromTrap.portOuts = s.portOuts := rfl
@[simp] theorem State.returnFromTrap_intCmds (s : State) : s.returnFromTrap.intCmds = s.intCmds ++ [.returned] := rfl
@[simp] theorem State.returnFromTrap_draws (s : State) : s.returnFromTrap.draws = s.draws + 1 := rfl

@[simp] theorem State.divTo_flags (s : State) (op : DivOp) (a b : Word) (r : Option Word) (rde : RegId) :
    (s.divTo op a b r rde).flags = s.flags := by
  rcases s.divTo_cases op a b r rde with ⟨v, _, e⟩ | ⟨v, _, _, e⟩ | ⟨id, _, _, e⟩ <;> simp [e]
@[simp] theorem State.divTo_mem (s : State) (op : DivOp) (a b : Word) (r : Option Word) (rde : RegId) :
    (s.divTo op a b r rde).mem = s.mem := by
  rcases s.divTo_cases op a b r rde with ⟨v, _, e⟩ | ⟨v, _, _, e⟩ | ⟨id, _, _, e⟩ <;> simp [e]
@[simp] theorem State.divTo_portOuts (s : State) (op : DivOp) (a b : Word) (r : Option Word) (rde : RegId) :
    (s.divTo op a b r rde).portOuts = s.portOuts := by
  rcases s.divTo_cases op a b r rde with ⟨v, _, e⟩ | ⟨v, _, _, e⟩ | ⟨id, _, _, e⟩ <;> simp [e]

end Sys2Proof.Machine
end

