-- ==== Sys2Proof/Laws/Memory.lean ====
section
/-! SUPPORT. Laws/Memory: reading after writing, and that every memory operation keeps the canonical form. -/
namespace Sys2Proof.Machine

/-! ### The canonical form -/

/-- The form of a tail with a higher bound has it with a lower one. -/
theorem Memory.risingFrom_mono {lo hi : Nat} (h : lo ≤ hi) {m : Memory} (hm : Memory.risingFrom hi m = true) :
    Memory.risingFrom lo m = true := by
  cases m with
  | nil => rfl
  | cons c rest =>
    simp only [Memory.risingFrom, Bool.and_eq_true, decide_eq_true_eq] at hm ⊢
    exact ⟨⟨⟨by omega, hm.1.1.2⟩, hm.1.2⟩, hm.2⟩

/-- Nothing is listed below the bound. -/
theorem Memory.read_below {lo : Nat} {m : Memory} (hm : Memory.risingFrom lo m = true) {a : Nat} (h : a < lo) :
    Memory.read m a = Memory.unlisted := by
  induction m generalizing lo with
  | nil => rfl
  | cons c rest ih =>
    simp only [Memory.risingFrom, Bool.and_eq_true, decide_eq_true_eq] at hm
    have hne : c.1 ≠ a := by omega
    simp only [Memory.read, hne, if_false]
    exact ih hm.2 (by omega)

/-- Putting a cell in front keeps the form. -/
theorem Memory.put_rising {lo a : Nat} {v : Byte} {rest : Memory} (h1 : lo ≤ a) (h2 : a < 2 ^ 64)
    (hr : Memory.risingFrom (a + 1) rest = true) : Memory.risingFrom lo (Memory.put a v rest) = true := by
  unfold Memory.put
  split
  · exact Memory.risingFrom_mono (by omega) hr
  · simp_all [Memory.risingFrom]

/-- Writing a byte keeps the form. -/
theorem Memory.write_rising {lo a : Nat} {v : Byte} {m : Memory} (h1 : lo ≤ a) (h2 : a < 2 ^ 64)
    (hm : Memory.risingFrom lo m = true) : Memory.risingFrom lo (Memory.write m a v) = true := by
  induction m generalizing lo with
  | nil => exact Memory.put_rising h1 h2 rfl
  | cons c rest ih =>
    have hm' := hm
    simp only [Memory.risingFrom, Bool.and_eq_true, decide_eq_true_eq] at hm
    unfold Memory.write
    split
    · refine Memory.put_rising h1 h2 ?_
      simp only [Memory.risingFrom, Bool.and_eq_true, decide_eq_true_eq]
      exact ⟨⟨⟨by omega, hm.1.1.2⟩, hm.1.2⟩, hm.2⟩
    · split
      · next h => subst h; exact Memory.put_rising h1 h2 hm.2
      · simp only [Memory.risingFrom, Bool.and_eq_true, decide_eq_true_eq]
        exact ⟨⟨⟨hm.1.1.1, hm.1.1.2⟩, hm.1.2⟩, ih (by omega) hm.2⟩

/-- Writing a byte inside the address space keeps the canonical form. -/
theorem Memory.write_wf {m : Memory} (hm : Memory.wf m = true) {a : Nat} (h : a < 2 ^ 64) (v : Byte) :
    Memory.wf (Memory.write m a v) = true := Memory.write_rising (Nat.zero_le a) h hm

/-- Writing bytes keeps the canonical form. -/
theorem Memory.writeBytes_wf {m : Memory} (hm : Memory.wf m = true) (a : Word) (bs : List Byte) :
    Memory.wf (Memory.writeBytes m a bs) = true := by
  induction bs generalizing m a with
  | nil => exact hm
  | cons b rest ih => exact ih (Memory.write_wf hm a.isLt b) (a + 1)

/-- Writing a datum keeps the canonical form. -/
theorem Memory.writeDatum_wf {m : Memory} (hm : Memory.wf m = true) (a : Word) (n : Nat) (v : Word) :
    Memory.wf (Memory.writeDatum m a n v) = true := Memory.writeBytes_wf hm a _

/-! ### Reading after writing one byte -/

/-- Reading past a cell of another address. -/
theorem Memory.read_put_ne {a b : Nat} (h : b ≠ a) (v : Byte) (rest : Memory) :
    Memory.read (Memory.put a v rest) b = Memory.read rest b := by
  unfold Memory.put
  split
  · rfl
  · simp [Memory.read, h.symm]

/-- A write leaves every other address alone. -/
theorem Memory.read_write_ne {a b : Nat} (h : b ≠ a) (v : Byte) (m : Memory) :
    Memory.read (Memory.write m a v) b = Memory.read m b := by
  induction m with
  | nil => exact Memory.read_put_ne h v []
  | cons c rest ih =>
    unfold Memory.write
    split
    · exact Memory.read_put_ne h v _
    · split
      · next h2 => rw [Memory.read_put_ne h]; simp [Memory.read, ← h2, h.symm]
      · simp only [Memory.read, ih]

/-- A read after a write to the same address gives the value written, in memory of the canonical form. -/
theorem Memory.read_write_same_rising {lo a : Nat} {m : Memory} (hm : Memory.risingFrom lo m = true) (v : Byte) :
    Memory.read (Memory.write m a v) a = v := by
  have put : ∀ (rest : Memory), Memory.read rest a = Memory.unlisted → Memory.read (Memory.put a v rest) a = v := by
    intro rest hr
    unfold Memory.put
    split
    · next h => rw [hr, h]
    · simp [Memory.read]
  induction m generalizing lo with
  | nil => exact put [] rfl
  | cons c rest ih =>
    simp only [Memory.risingFrom, Bool.and_eq_true, decide_eq_true_eq] at hm
    unfold Memory.write
    split
    · next h =>
      refine put _ ?_
      have hne : c.1 ≠ a := by omega
      simp only [Memory.read, hne, if_false]
      exact Memory.read_below hm.2 (by omega)
    · split
      · next h => exact put _ (Memory.read_below hm.2 (by omega))
      · next h1 h2 =>
        simp only [Memory.read, Ne.symm h2, if_false]
        exact ih hm.2

/-- A read after a write to the same address gives the value written, in memory of the canonical form. -/
theorem Memory.read_write_same {m : Memory} (hm : Memory.wf m = true) (a : Nat) (v : Byte) :
    Memory.read (Memory.write m a v) a = v := Memory.read_write_same_rising hm v

/-- Writing bytes leaves every address outside them alone. -/
theorem Memory.read_writeBytes_ne (bs : List Byte) (m : Memory) (a b : Word)
    (h : ∀ k, k < bs.length → b ≠ a + BitVec.ofNat 64 k) :
    Memory.read (Memory.writeBytes m a bs) b.toNat = Memory.read m b.toNat := by
  induction bs generalizing m a with
  | nil => rfl
  | cons x rest ih =>
    have h0 : b ≠ a := by simpa using h 0 (by simp)
    have hn : b.toNat ≠ a.toNat := fun e => h0 (BitVec.eq_of_toNat_eq e)
    unfold Memory.writeBytes
    rw [ih, Memory.read_write_ne hn]
    intro k hk e
    refine h (k + 1) (by simpa using hk) ?_
    rw [e, BitVec.ofNat_add]
    ac_rfl

/-- Byte k of the bytes written reads back, in memory of the canonical form, when no address is written twice. -/
theorem Memory.read_writeBytes_same (bs : List Byte) (m : Memory) (hm : Memory.wf m = true) (a : Word)
    (hl : bs.length ≤ 2 ^ 64) (k : Nat) (hk : k < bs.length) :
    Memory.read (Memory.writeBytes m a bs) (a + BitVec.ofNat 64 k).toNat = bs[k] := by
  induction bs generalizing m a k with
  | nil => simp at hk
  | cons x rest ih =>
    unfold Memory.writeBytes
    simp only [List.length_cons] at hl hk
    cases k with
    | zero =>
      rw [Memory.read_writeBytes_ne]
      · simpa using Memory.read_write_same hm a.toNat x
      · intro j hj e
        have : (BitVec.ofNat 64 0 : Word) = 1 + BitVec.ofNat 64 j := by
          have e' : a + BitVec.ofNat 64 0 = a + (1 + BitVec.ofNat 64 j) := by rw [e]; ac_rfl
          exact (BitVec.add_right_inj a).mp e'
        have := congrArg BitVec.toNat this
        simp [BitVec.toNat_add] at this
        omega
    | succ j =>
      have e : a + BitVec.ofNat 64 (j + 1) = (a + 1) + BitVec.ofNat 64 j := by
        rw [BitVec.ofNat_add]; ac_rfl
      rw [e, ih _ (Memory.write_wf hm a.isLt x) (a + 1) (by omega) j (by omega)]
      rfl

/-! ### Data of several bytes -/

@[simp] theorem Memory.readBytes_length (m : Memory) (a : Word) (n : Nat) : (Memory.readBytes m a n).length = n := by
  induction n generalizing a with
  | zero => rfl
  | succ k ih => simp [Memory.readBytes, ih]

/-- Byte k of the bytes read. -/
theorem Memory.readBytes_getElem (m : Memory) (n : Nat) (a : Word) (k : Nat) (h : k < n) :
    (Memory.readBytes m a n)[k]'(by simpa using h) = Memory.read m (a + BitVec.ofNat 64 k).toNat := by
  induction n generalizing a k with
  | zero => omega
  | succ j ih =>
    cases k with
    | zero => simp [Memory.readBytes]
    | succ i =>
      simp only [Memory.readBytes, List.getElem_cons_succ]
      rw [ih (a + 1) i (by omega)]
      congr 2
      rw [BitVec.ofNat_add]
      ac_rfl

@[simp] theorem bytesLittle_length (n : Nat) (v : Word) : (bytesLittle n v).length = n := by
  induction n generalizing v with
  | zero => rfl
  | succ k ih => simp [bytesLittle, ih]

@[simp] theorem datumBytes_length (o : ByteOrder) (n : Nat) (v : Word) : (datumBytes o n v).length = n := by
  cases o <;> simp [datumBytes]

/-- Byte k of a value, least significant first. -/
theorem bytesLittle_getElem (n : Nat) (v : Word) (k : Nat) (h : k < n) :
    (bytesLittle n v)[k]'(by simpa using h) = v.extractLsb' (8 * k) 8 := by
  induction n generalizing v k with
  | zero => omega
  | succ j ih =>
    cases k with
    | zero => simp [bytesLittle]
    | succ i =>
      simp only [bytesLittle, List.getElem_cons_succ]
      rw [ih (v >>> 8) i (by omega)]
      ext b hb
      simp [Nat.mul_add, Nat.add_comm, Nat.add_left_comm]

/-- The bytes of a value make up its low bytes again. -/
theorem wordLittle_bytesLittle_getLsbD (n : Nat) (v : Word) (j : Nat) (hj : j < 64) :
    (wordLittle (bytesLittle n v)).getLsbD j = (decide (j < 8 * n) && v.getLsbD j) := by
  induction n generalizing v j with
  | zero => simp [bytesLittle, wordLittle]
  | succ k ih =>
    simp only [bytesLittle, wordLittle, BitVec.getLsbD_or, BitVec.getLsbD_shiftLeft]
    by_cases h8 : j < 8
    · have : j < 8 * (k + 1) := by omega
      simp [h8, this, hj]
    · rw [ih (v >>> 8) (j - 8) (by omega)]
      have e : 8 + (j - 8) = j := by omega
      have e2 : (j - 8 < 8 * k) = (j < 8 * (k + 1)) := by apply propext; omega
      simp [h8, hj, e, e2]

/-- A datum read back from its own bytes is its low `n` bytes. -/
theorem datumOfBytes_datumBytes (o : ByteOrder) (n : Nat) (v : Word) :
    datumOfBytes o (datumBytes o n v) = wordLittle (bytesLittle n v) := by
  cases o <;> simp [datumOfBytes, datumBytes]

/-! ### The state's view -/

/-- What a byte reads as after a datum is written, away from it. -/
theorem State.readByte_memWrite_ne (s : State) (a : Word) (n : Nat) (v b : Word)
    (h : ∀ k, k < n → b ≠ a + BitVec.ofNat 64 k) : (s.memWrite a n v).readByte b = s.readByte b :=
  Memory.read_writeBytes_ne _ _ _ _ (by simpa using h)

/-- The memory of the machine after reset is in the canonical form. -/
theorem State.reset_mem_wf : Memory.wf State.reset.mem = true := rfl

end Sys2Proof.Machine
end

