-- ==== Sys2Proof/Laws/PerInstr.lean ====
section
/-! SUPPORT. Laws/PerInstr: the families of statements made for each instruction, one lemma for each constructor.
OpcodeOfEncoding: the low byte of an instruction's encoding is the opcode of its table row (R70, R130, R134). -/
namespace Sys2Proof

namespace Laws

/-- The opcode of the encoding is the low byte of the row's match value. -/
def OpcodeOfEncoding.Statement (i : Instr) : Prop := opcodeOf (encode i) = opcodeOf i.row.value

theorem OpcodeOfEncoding.int (intr : IntId) : OpcodeOfEncoding.Statement (.int intr) :=
  (opcodeOf_packFields _ _ _).trans (show (0x01 : BitVec 8) = opcodeOf 0x00000001 by decide)
theorem OpcodeOfEncoding.iret : OpcodeOfEncoding.Statement (.iret) :=
  (opcodeOf_packFields _ _ _).trans (show (0x01 : BitVec 8) = opcodeOf 0x01000001 by decide)
theorem OpcodeOfEncoding.ires : OpcodeOfEncoding.Statement (.ires) :=
  (opcodeOf_packFields _ _ _).trans (show (0x01 : BitVec 8) = opcodeOf 0x02000001 by decide)
theorem OpcodeOfEncoding.usr (rde : RegId) : OpcodeOfEncoding.Statement (.usr rde) :=
  (opcodeOf_packFields _ _ _).trans (show (0x01 : BitVec 8) = opcodeOf 0x03000001 by decide)
theorem OpcodeOfEncoding.outr (rde rs1 : RegId) : OpcodeOfEncoding.Statement (.outr rde rs1) :=
  (opcodeOf_packFields _ _ _).trans (show (0x02 : BitVec 8) = opcodeOf 0x00000002 by decide)
theorem OpcodeOfEncoding.outi (rs1 : RegId) (imm : Port) : OpcodeOfEncoding.Statement (.outi rs1 imm) :=
  (opcodeOf_packFields _ _ _).trans (show (0x03 : BitVec 8) = opcodeOf 0x00000003 by decide)
theorem OpcodeOfEncoding.inr (rde rs1 : RegId) : OpcodeOfEncoding.Statement (.inr rde rs1) :=
  (opcodeOf_packFields _ _ _).trans (show (0x04 : BitVec 8) = opcodeOf 0x00000004 by decide)
theorem OpcodeOfEncoding.ini (rde : RegId) (imm : Port) : OpcodeOfEncoding.Statement (.ini rde imm) :=
  (opcodeOf_packFields _ _ _).trans (show (0x05 : BitVec 8) = opcodeOf 0x00000005 by decide)
theorem OpcodeOfEncoding.jal (rs1 : RegId) (imm : BitVec 16) : OpcodeOfEncoding.Statement (.jal rs1 imm) :=
  (opcodeOf_packFields _ _ _).trans (show (0x06 : BitVec 8) = opcodeOf 0x00000006 by decide)
theorem OpcodeOfEncoding.jalr (rde rs1 : RegId) (imm : BitVec 16) : OpcodeOfEncoding.Statement (.jalr rde rs1 imm) :=
  (opcodeOf_packFields _ _ _).trans (show (0x07 : BitVec 8) = opcodeOf 0x00000007 by decide)
theorem OpcodeOfEncoding.ret : OpcodeOfEncoding.Statement (.ret) :=
  (opcodeOf_packFields _ _ _).trans (show (0x08 : BitVec 8) = opcodeOf 0x00000008 by decide)
theorem OpcodeOfEncoding.retr (rs1 : RegId) : OpcodeOfEncoding.Statement (.retr rs1) :=
  (opcodeOf_packFields _ _ _).trans (show (0x09 : BitVec 8) = opcodeOf 0x00000009 by decide)
theorem OpcodeOfEncoding.bra (imm : BitVec 20) : OpcodeOfEncoding.Statement (.bra imm) :=
  (opcodeOf_packFields _ _ _).trans (show (0x0A : BitVec 8) = opcodeOf 0x0000000A by decide)
theorem OpcodeOfEncoding.beq (imm : BitVec 20) : OpcodeOfEncoding.Statement (.beq imm) :=
  (opcodeOf_packFields _ _ _).trans (show (0x0A : BitVec 8) = opcodeOf 0x1000000A by decide)
theorem OpcodeOfEncoding.bez (imm : BitVec 20) : OpcodeOfEncoding.Statement (.bez imm) :=
  (opcodeOf_packFields _ _ _).trans (show (0x0A : BitVec 8) = opcodeOf 0x2000000A by decide)
theorem OpcodeOfEncoding.blt (imm : BitVec 20) : OpcodeOfEncoding.Statement (.blt imm) :=
  (opcodeOf_packFields _ _ _).trans (show (0x0A : BitVec 8) = opcodeOf 0x3000000A by decide)
theorem OpcodeOfEncoding.ble (imm : BitVec 20) : OpcodeOfEncoding.Statement (.ble imm) :=
  (opcodeOf_packFields _ _ _).trans (show (0x0A : BitVec 8) = opcodeOf 0x4000000A by decide)
theorem OpcodeOfEncoding.bltu (imm : BitVec 20) : OpcodeOfEncoding.Statement (.bltu imm) :=
  (opcodeOf_packFields _ _ _).trans (show (0x0A : BitVec 8) = opcodeOf 0x5000000A by decide)
theorem OpcodeOfEncoding.bleu (imm : BitVec 20) : OpcodeOfEncoding.Statement (.bleu imm) :=
  (opcodeOf_packFields _ _ _).trans (show (0x0A : BitVec 8) = opcodeOf 0x6000000A by decide)
theorem OpcodeOfEncoding.bne (imm : BitVec 20) : OpcodeOfEncoding.Statement (.bne imm) :=
  (opcodeOf_packFields _ _ _).trans (show (0x0A : BitVec 8) = opcodeOf 0x9000000A by decide)
theorem OpcodeOfEncoding.bnz (imm : BitVec 20) : OpcodeOfEncoding.Statement (.bnz imm) :=
  (opcodeOf_packFields _ _ _).trans (show (0x0A : BitVec 8) = opcodeOf 0xA000000A by decide)
theorem OpcodeOfEncoding.bge (imm : BitVec 20) : OpcodeOfEncoding.Statement (.bge imm) :=
  (opcodeOf_packFields _ _ _).trans (show (0x0A : BitVec 8) = opcodeOf 0xB000000A by decide)
theorem OpcodeOfEncoding.bgt (imm : BitVec 20) : OpcodeOfEncoding.Statement (.bgt imm) :=
  (opcodeOf_packFields _ _ _).trans (show (0x0A : BitVec 8) = opcodeOf 0xC000000A by decide)
theorem OpcodeOfEncoding.bgeu (imm : BitVec 20) : OpcodeOfEncoding.Statement (.bgeu imm) :=
  (opcodeOf_packFields _ _ _).trans (show (0x0A : BitVec 8) = opcodeOf 0xD000000A by decide)
theorem OpcodeOfEncoding.bgtu (imm : BitVec 20) : OpcodeOfEncoding.Statement (.bgtu imm) :=
  (opcodeOf_packFields _ _ _).trans (show (0x0A : BitVec 8) = opcodeOf 0xE000000A by decide)
theorem OpcodeOfEncoding.push (rs1 : RegId) : OpcodeOfEncoding.Statement (.push rs1) :=
  (opcodeOf_packFields _ _ _).trans (show (0x0B : BitVec 8) = opcodeOf 0x0000000B by decide)
theorem OpcodeOfEncoding.pop (rde : RegId) : OpcodeOfEncoding.Statement (.pop rde) :=
  (opcodeOf_packFields _ _ _).trans (show (0x0C : BitVec 8) = opcodeOf 0x0000000C by decide)
theorem OpcodeOfEncoding.enter : OpcodeOfEncoding.Statement (.enter) :=
  (opcodeOf_packFields _ _ _).trans (show (0x0D : BitVec 8) = opcodeOf 0x0000000D by decide)
theorem OpcodeOfEncoding.leave : OpcodeOfEncoding.Statement (.leave) :=
  (opcodeOf_packFields _ _ _).trans (show (0x0E : BitVec 8) = opcodeOf 0x0000000E by decide)
theorem OpcodeOfEncoding.lli (rde : RegId) (imm : BitVec 16) : OpcodeOfEncoding.Statement (.lli rde imm) :=
  (opcodeOf_packFields _ _ _).trans (show (0x10 : BitVec 8) = opcodeOf 0x00000010 by decide)
theorem OpcodeOfEncoding.llis (rde : RegId) (imm : BitVec 16) : OpcodeOfEncoding.Statement (.llis rde imm) :=
  (opcodeOf_packFields _ _ _).trans (show (0x10 : BitVec 8) = opcodeOf 0x01000010 by decide)
theorem OpcodeOfEncoding.lui (rde : RegId) (imm : BitVec 16) : OpcodeOfEncoding.Statement (.lui rde imm) :=
  (opcodeOf_packFields _ _ _).trans (show (0x10 : BitVec 8) = opcodeOf 0x02000010 by decide)
theorem OpcodeOfEncoding.luis (rde : RegId) (imm : BitVec 16) : OpcodeOfEncoding.Statement (.luis rde imm) :=
  (opcodeOf_packFields _ _ _).trans (show (0x10 : BitVec 8) = opcodeOf 0x03000010 by decide)
theorem OpcodeOfEncoding.lti (rde : RegId) (imm : BitVec 16) : OpcodeOfEncoding.Statement (.lti rde imm) :=
  (opcodeOf_packFields _ _ _).trans (show (0x10 : BitVec 8) = opcodeOf 0x04000010 by decide)
theorem OpcodeOfEncoding.ltis (rde : RegId) (imm : BitVec 16) : OpcodeOfEncoding.Statement (.ltis rde imm) :=
  (opcodeOf_packFields _ _ _).trans (show (0x10 : BitVec 8) = opcodeOf 0x05000010 by decide)
theorem OpcodeOfEncoding.ltui (rde : RegId) (imm : BitVec 16) : OpcodeOfEncoding.Statement (.ltui rde imm) :=
  (opcodeOf_packFields _ _ _).trans (show (0x10 : BitVec 8) = opcodeOf 0x06000010 by decide)
theorem OpcodeOfEncoding.ltuis (rde : RegId) (imm : BitVec 16) : OpcodeOfEncoding.Statement (.ltuis rde imm) :=
  (opcodeOf_packFields _ _ _).trans (show (0x10 : BitVec 8) = opcodeOf 0x07000010 by decide)
theorem OpcodeOfEncoding.lw (rde rs1 rs2 : RegId) (func : Nibble) (imm : BitVec 8) 
    : OpcodeOfEncoding.Statement (.lw rde rs1 rs2 func imm) :=
  (opcodeOf_packFields _ _ _).trans (show (0x11 : BitVec 8) = opcodeOf 0x00000011 by decide)
theorem OpcodeOfEncoding.lh (rde rs1 rs2 : RegId) (func : Nibble) (imm : BitVec 8) 
    : OpcodeOfEncoding.Statement (.lh rde rs1 rs2 func imm) :=
  (opcodeOf_packFields _ _ _).trans (show (0x12 : BitVec 8) = opcodeOf 0x00000012 by decide)
theorem OpcodeOfEncoding.lhs (rde rs1 rs2 : RegId) (func : Nibble) (imm : BitVec 8) 
    : OpcodeOfEncoding.Statement (.lhs rde rs1 rs2 func imm) :=
  (opcodeOf_packFields _ _ _).trans (show (0x13 : BitVec 8) = opcodeOf 0x00000013 by decide)
theorem OpcodeOfEncoding.lq (rde rs1 rs2 : RegId) (func : Nibble) (imm : BitVec 8) 
    : OpcodeOfEncoding.Statement (.lq rde rs1 rs2 func imm) :=
  (opcodeOf_packFields _ _ _).trans (show (0x14 : BitVec 8) = opcodeOf 0x00000014 by decide)
theorem OpcodeOfEncoding.lqs (rde rs1 rs2 : RegId) (func : Nibble) (imm : BitVec 8) 
    : OpcodeOfEncoding.Statement (.lqs rde rs1 rs2 func imm) :=
  (opcodeOf_packFields _ _ _).trans (show (0x15 : BitVec 8) = opcodeOf 0x00000015 by decide)
theorem OpcodeOfEncoding.lb (rde rs1 rs2 : RegId) (func : Nibble) (imm : BitVec 8) 
    : OpcodeOfEncoding.Statement (.lb rde rs1 rs2 func imm) :=
  (opcodeOf_packFields _ _ _).trans (show (0x16 : BitVec 8) = opcodeOf 0x00000016 by decide)
theorem OpcodeOfEncoding.lbs (rde rs1 rs2 : RegId) (func : Nibble) (imm : BitVec 8) 
    : OpcodeOfEncoding.Statement (.lbs rde rs1 rs2 func imm) :=
  (opcodeOf_packFields _ _ _).trans (show (0x17 : BitVec 8) = opcodeOf 0x00000017 by decide)
theorem OpcodeOfEncoding.sw (rde rs1 rs2 : RegId) (func : Nibble) (imm : BitVec 8) 
    : OpcodeOfEncoding.Statement (.sw rde rs1 rs2 func imm) :=
  (opcodeOf_packFields _ _ _).trans (show (0x18 : BitVec 8) = opcodeOf 0x00000018 by decide)
theorem OpcodeOfEncoding.sh (rde rs1 rs2 : RegId) (func : Nibble) (imm : BitVec 8) 
    : OpcodeOfEncoding.Statement (.sh rde rs1 rs2 func imm) :=
  (opcodeOf_packFields _ _ _).trans (show (0x19 : BitVec 8) = opcodeOf 0x00000019 by decide)
theorem OpcodeOfEncoding.sq (rde rs1 rs2 : RegId) (func : Nibble) (imm : BitVec 8) 
    : OpcodeOfEncoding.Statement (.sq rde rs1 rs2 func imm) :=
  (opcodeOf_packFields _ _ _).trans (show (0x1A : BitVec 8) = opcodeOf 0x0000001A by decide)
theorem OpcodeOfEncoding.sb (rde rs1 rs2 : RegId) (func : Nibble) (imm : BitVec 8) 
    : OpcodeOfEncoding.Statement (.sb rde rs1 rs2 func imm) :=
  (opcodeOf_packFields _ _ _).trans (show (0x1B : BitVec 8) = opcodeOf 0x0000001B by decide)
theorem OpcodeOfEncoding.cmpr (rde rs1 : RegId) : OpcodeOfEncoding.Statement (.cmpr rde rs1) :=
  (opcodeOf_packFields _ _ _).trans (show (0x1E : BitVec 8) = opcodeOf 0x0000001E by decide)
theorem OpcodeOfEncoding.cmpi (order : CompareOrder) (rde : RegId) (imm : BitVec 16) 
    : OpcodeOfEncoding.Statement (.cmpi order rde imm) :=
  (opcodeOf_packFields _ _ _).trans (show (0x1F : BitVec 8) = opcodeOf 0x0000001F by decide)
theorem OpcodeOfEncoding.addr (rde rs1 rs2 : RegId) : OpcodeOfEncoding.Statement (.addr rde rs1 rs2) :=
  (opcodeOf_packFields _ _ _).trans (show (0x20 : BitVec 8) = opcodeOf 0x00000020 by decide)
theorem OpcodeOfEncoding.addi (rde rs1 : RegId) (imm : BitVec 16) : OpcodeOfEncoding.Statement (.addi rde rs1 imm) :=
  (opcodeOf_packFields _ _ _).trans (show (0x21 : BitVec 8) = opcodeOf 0x00000021 by decide)
theorem OpcodeOfEncoding.subr (rde rs1 rs2 : RegId) : OpcodeOfEncoding.Statement (.subr rde rs1 rs2) :=
  (opcodeOf_packFields _ _ _).trans (show (0x22 : BitVec 8) = opcodeOf 0x00000022 by decide)
theorem OpcodeOfEncoding.subi (rde rs1 : RegId) (imm : BitVec 16) : OpcodeOfEncoding.Statement (.subi rde rs1 imm) :=
  (opcodeOf_packFields _ _ _).trans (show (0x23 : BitVec 8) = opcodeOf 0x00000023 by decide)
theorem OpcodeOfEncoding.imulr (rde rs1 rs2 : RegId) : OpcodeOfEncoding.Statement (.imulr rde rs1 rs2) :=
  (opcodeOf_packFields _ _ _).trans (show (0x24 : BitVec 8) = opcodeOf 0x00000024 by decide)
theorem OpcodeOfEncoding.imuli (rde rs1 : RegId) (imm : BitVec 16) : OpcodeOfEncoding.Statement (.imuli rde rs1 imm) :=
  (opcodeOf_packFields _ _ _).trans (show (0x25 : BitVec 8) = opcodeOf 0x00000025 by decide)
theorem OpcodeOfEncoding.idivr (rde rs1 rs2 : RegId) : OpcodeOfEncoding.Statement (.idivr rde rs1 rs2) :=
  (opcodeOf_packFields _ _ _).trans (show (0x26 : BitVec 8) = opcodeOf 0x00000026 by decide)
theorem OpcodeOfEncoding.idivi (rde rs1 : RegId) (imm : BitVec 16) : OpcodeOfEncoding.Statement (.idivi rde rs1 imm) :=
  (opcodeOf_packFields _ _ _).trans (show (0x27 : BitVec 8) = opcodeOf 0x00000027 by decide)
theorem OpcodeOfEncoding.umulr (rde rs1 rs2 : RegId) : OpcodeOfEncoding.Statement (.umulr rde rs1 rs2) :=
  (opcodeOf_packFields _ _ _).trans (show (0x28 : BitVec 8) = opcodeOf 0x00000028 by decide)
theorem OpcodeOfEncoding.umuli (rde rs1 : RegId) (imm : BitVec 16) : OpcodeOfEncoding.Statement (.umuli rde rs1 imm) :=
  (opcodeOf_packFields _ _ _).trans (show (0x29 : BitVec 8) = opcodeOf 0x00000029 by decide)
theorem OpcodeOfEncoding.udivr (rde rs1 rs2 : RegId) : OpcodeOfEncoding.Statement (.udivr rde rs1 rs2) :=
  (opcodeOf_packFields _ _ _).trans (show (0x2A : BitVec 8) = opcodeOf 0x0000002A by decide)
theorem OpcodeOfEncoding.udivi (rde rs1 : RegId) (imm : BitVec 16) : OpcodeOfEncoding.Statement (.udivi rde rs1 imm) :=
  (opcodeOf_packFields _ _ _).trans (show (0x2B : BitVec 8) = opcodeOf 0x0000002B by decide)
theorem OpcodeOfEncoding.remr (rde rs1 rs2 : RegId) : OpcodeOfEncoding.Statement (.remr rde rs1 rs2) :=
  (opcodeOf_packFields _ _ _).trans (show (0x2C : BitVec 8) = opcodeOf 0x0000002C by decide)
theorem OpcodeOfEncoding.remi (rde rs1 : RegId) (imm : BitVec 16) : OpcodeOfEncoding.Statement (.remi rde rs1 imm) :=
  (opcodeOf_packFields _ _ _).trans (show (0x2D : BitVec 8) = opcodeOf 0x0000002D by decide)
theorem OpcodeOfEncoding.modr (rde rs1 rs2 : RegId) : OpcodeOfEncoding.Statement (.modr rde rs1 rs2) :=
  (opcodeOf_packFields _ _ _).trans (show (0x2E : BitVec 8) = opcodeOf 0x0000002E by decide)
theorem OpcodeOfEncoding.modi (rde rs1 : RegId) (imm : BitVec 16) : OpcodeOfEncoding.Statement (.modi rde rs1 imm) :=
  (opcodeOf_packFields _ _ _).trans (show (0x2F : BitVec 8) = opcodeOf 0x0000002F by decide)
theorem OpcodeOfEncoding.andr (rde rs1 rs2 : RegId) : OpcodeOfEncoding.Statement (.andr rde rs1 rs2) :=
  (opcodeOf_packFields _ _ _).trans (show (0x30 : BitVec 8) = opcodeOf 0x00000030 by decide)
theorem OpcodeOfEncoding.andi (rde rs1 : RegId) (imm : BitVec 16) : OpcodeOfEncoding.Statement (.andi rde rs1 imm) :=
  (opcodeOf_packFields _ _ _).trans (show (0x31 : BitVec 8) = opcodeOf 0x00000031 by decide)
theorem OpcodeOfEncoding.orr (rde rs1 rs2 : RegId) : OpcodeOfEncoding.Statement (.orr rde rs1 rs2) :=
  (opcodeOf_packFields _ _ _).trans (show (0x32 : BitVec 8) = opcodeOf 0x00000032 by decide)
theorem OpcodeOfEncoding.ori (rde rs1 : RegId) (imm : BitVec 16) : OpcodeOfEncoding.Statement (.ori rde rs1 imm) :=
  (opcodeOf_packFields _ _ _).trans (show (0x33 : BitVec 8) = opcodeOf 0x00000033 by decide)
theorem OpcodeOfEncoding.norr (rde rs1 rs2 : RegId) : OpcodeOfEncoding.Statement (.norr rde rs1 rs2) :=
  (opcodeOf_packFields _ _ _).trans (show (0x34 : BitVec 8) = opcodeOf 0x00000034 by decide)
theorem OpcodeOfEncoding.nori (rde rs1 : RegId) (imm : BitVec 16) : OpcodeOfEncoding.Statement (.nori rde rs1 imm) :=
  (opcodeOf_packFields _ _ _).trans (show (0x35 : BitVec 8) = opcodeOf 0x00000035 by decide)
theorem OpcodeOfEncoding.xorr (rde rs1 rs2 : RegId) : OpcodeOfEncoding.Statement (.xorr rde rs1 rs2) :=
  (opcodeOf_packFields _ _ _).trans (show (0x36 : BitVec 8) = opcodeOf 0x00000036 by decide)
theorem OpcodeOfEncoding.xori (rde rs1 : RegId) (imm : BitVec 16) : OpcodeOfEncoding.Statement (.xori rde rs1 imm) :=
  (opcodeOf_packFields _ _ _).trans (show (0x37 : BitVec 8) = opcodeOf 0x00000037 by decide)
theorem OpcodeOfEncoding.shlr (rde rs1 rs2 : RegId) : OpcodeOfEncoding.Statement (.shlr rde rs1 rs2) :=
  (opcodeOf_packFields _ _ _).trans (show (0x38 : BitVec 8) = opcodeOf 0x00000038 by decide)
theorem OpcodeOfEncoding.shli (rde rs1 : RegId) (imm : BitVec 16) : OpcodeOfEncoding.Statement (.shli rde rs1 imm) :=
  (opcodeOf_packFields _ _ _).trans (show (0x39 : BitVec 8) = opcodeOf 0x00000039 by decide)
theorem OpcodeOfEncoding.asrr (rde rs1 rs2 : RegId) : OpcodeOfEncoding.Statement (.asrr rde rs1 rs2) :=
  (opcodeOf_packFields _ _ _).trans (show (0x3A : BitVec 8) = opcodeOf 0x0000003A by decide)
theorem OpcodeOfEncoding.asri (rde rs1 : RegId) (imm : BitVec 16) : OpcodeOfEncoding.Statement (.asri rde rs1 imm) :=
  (opcodeOf_packFields _ _ _).trans (show (0x3B : BitVec 8) = opcodeOf 0x0000003B by decide)
theorem OpcodeOfEncoding.lsrr (rde rs1 rs2 : RegId) : OpcodeOfEncoding.Statement (.lsrr rde rs1 rs2) :=
  (opcodeOf_packFields _ _ _).trans (show (0x3C : BitVec 8) = opcodeOf 0x0000003C by decide)
theorem OpcodeOfEncoding.lsri (rde rs1 : RegId) (imm : BitVec 16) : OpcodeOfEncoding.Statement (.lsri rde rs1 imm) :=
  (opcodeOf_packFields _ _ _).trans (show (0x3D : BitVec 8) = opcodeOf 0x0000003D by decide)
theorem OpcodeOfEncoding.bitr (rde rs1 rs2 : RegId) : OpcodeOfEncoding.Statement (.bitr rde rs1 rs2) :=
  (opcodeOf_packFields _ _ _).trans (show (0x3E : BitVec 8) = opcodeOf 0x0000003E by decide)
theorem OpcodeOfEncoding.biti (rde rs1 : RegId) (imm : BitVec 16) : OpcodeOfEncoding.Statement (.biti rde rs1 imm) :=
  (opcodeOf_packFields _ _ _).trans (show (0x3F : BitVec 8) = opcodeOf 0x0000003F by decide)
theorem OpcodeOfEncoding.fcmpF16 (rde rs1 : RegId) : OpcodeOfEncoding.Statement (.fcmpF16 rde rs1) :=
  (opcodeOf_packFields _ _ _).trans (show (0x40 : BitVec 8) = opcodeOf 0x00000040 by decide)
theorem OpcodeOfEncoding.fcmpF32 (rde rs1 : RegId) : OpcodeOfEncoding.Statement (.fcmpF32 rde rs1) :=
  (opcodeOf_packFields _ _ _).trans (show (0x40 : BitVec 8) = opcodeOf 0x00010040 by decide)
theorem OpcodeOfEncoding.fcmpF64 (rde rs1 : RegId) : OpcodeOfEncoding.Statement (.fcmpF64 rde rs1) :=
  (opcodeOf_packFields _ _ _).trans (show (0x40 : BitVec 8) = opcodeOf 0x00020040 by decide)
theorem OpcodeOfEncoding.ftoF16 (rde rs1 : RegId) : OpcodeOfEncoding.Statement (.ftoF16 rde rs1) :=
  (opcodeOf_packFields _ _ _).trans (show (0x41 : BitVec 8) = opcodeOf 0x00000041 by decide)
theorem OpcodeOfEncoding.ftoF32 (rde rs1 : RegId) : OpcodeOfEncoding.Statement (.ftoF32 rde rs1) :=
  (opcodeOf_packFields _ _ _).trans (show (0x41 : BitVec 8) = opcodeOf 0x00010041 by decide)
theorem OpcodeOfEncoding.ftoF64 (rde rs1 : RegId) : OpcodeOfEncoding.Statement (.ftoF64 rde rs1) :=
  (opcodeOf_packFields _ _ _).trans (show (0x41 : BitVec 8) = opcodeOf 0x00020041 by decide)
theorem OpcodeOfEncoding.ffromF16 (rde rs1 : RegId) : OpcodeOfEncoding.Statement (.ffromF16 rde rs1) :=
  (opcodeOf_packFields _ _ _).trans (show (0x42 : BitVec 8) = opcodeOf 0x00000042 by decide)
theorem OpcodeOfEncoding.ffromF32 (rde rs1 : RegId) : OpcodeOfEncoding.Statement (.ffromF32 rde rs1) :=
  (opcodeOf_packFields _ _ _).trans (show (0x42 : BitVec 8) = opcodeOf 0x00010042 by decide)
theorem OpcodeOfEncoding.ffromF64 (rde rs1 : RegId) : OpcodeOfEncoding.Statement (.ffromF64 rde rs1) :=
  (opcodeOf_packFields _ _ _).trans (show (0x42 : BitVec 8) = opcodeOf 0x00020042 by decide)
theorem OpcodeOfEncoding.fnegF16 (rde rs1 : RegId) : OpcodeOfEncoding.Statement (.fnegF16 rde rs1) :=
  (opcodeOf_packFields _ _ _).trans (show (0x43 : BitVec 8) = opcodeOf 0x00000043 by decide)
theorem OpcodeOfEncoding.fnegF32 (rde rs1 : RegId) : OpcodeOfEncoding.Statement (.fnegF32 rde rs1) :=
  (opcodeOf_packFields _ _ _).trans (show (0x43 : BitVec 8) = opcodeOf 0x00010043 by decide)
theorem OpcodeOfEncoding.fnegF64 (rde rs1 : RegId) : OpcodeOfEncoding.Statement (.fnegF64 rde rs1) :=
  (opcodeOf_packFields _ _ _).trans (show (0x43 : BitVec 8) = opcodeOf 0x00020043 by decide)
theorem OpcodeOfEncoding.fabsF16 (rde rs1 : RegId) : OpcodeOfEncoding.Statement (.fabsF16 rde rs1) :=
  (opcodeOf_packFields _ _ _).trans (show (0x44 : BitVec 8) = opcodeOf 0x00000044 by decide)
theorem OpcodeOfEncoding.fabsF32 (rde rs1 : RegId) : OpcodeOfEncoding.Statement (.fabsF32 rde rs1) :=
  (opcodeOf_packFields _ _ _).trans (show (0x44 : BitVec 8) = opcodeOf 0x00010044 by decide)
theorem OpcodeOfEncoding.fabsF64 (rde rs1 : RegId) : OpcodeOfEncoding.Statement (.fabsF64 rde rs1) :=
  (opcodeOf_packFields _ _ _).trans (show (0x44 : BitVec 8) = opcodeOf 0x00020044 by decide)
theorem OpcodeOfEncoding.faddF16 (rde rs1 rs2 : RegId) : OpcodeOfEncoding.Statement (.faddF16 rde rs1 rs2) :=
  (opcodeOf_packFields _ _ _).trans (show (0x45 : BitVec 8) = opcodeOf 0x00000045 by decide)
theorem OpcodeOfEncoding.faddF32 (rde rs1 rs2 : RegId) : OpcodeOfEncoding.Statement (.faddF32 rde rs1 rs2) :=
  (opcodeOf_packFields _ _ _).trans (show (0x45 : BitVec 8) = opcodeOf 0x00010045 by decide)
theorem OpcodeOfEncoding.faddF64 (rde rs1 rs2 : RegId) : OpcodeOfEncoding.Statement (.faddF64 rde rs1 rs2) :=
  (opcodeOf_packFields _ _ _).trans (show (0x45 : BitVec 8) = opcodeOf 0x00020045 by decide)
theorem OpcodeOfEncoding.fsubF16 (rde rs1 rs2 : RegId) : OpcodeOfEncoding.Statement (.fsubF16 rde rs1 rs2) :=
  (opcodeOf_packFields _ _ _).trans (show (0x46 : BitVec 8) = opcodeOf 0x00000046 by decide)
theorem OpcodeOfEncoding.fsubF32 (rde rs1 rs2 : RegId) : OpcodeOfEncoding.Statement (.fsubF32 rde rs1 rs2) :=
  (opcodeOf_packFields _ _ _).trans (show (0x46 : BitVec 8) = opcodeOf 0x00010046 by decide)
theorem OpcodeOfEncoding.fsubF64 (rde rs1 rs2 : RegId) : OpcodeOfEncoding.Statement (.fsubF64 rde rs1 rs2) :=
  (opcodeOf_packFields _ _ _).trans (show (0x46 : BitVec 8) = opcodeOf 0x00020046 by decide)
theorem OpcodeOfEncoding.fmulF16 (rde rs1 rs2 : RegId) : OpcodeOfEncoding.Statement (.fmulF16 rde rs1 rs2) :=
  (opcodeOf_packFields _ _ _).trans (show (0x47 : BitVec 8) = opcodeOf 0x00000047 by decide)
theorem OpcodeOfEncoding.fmulF32 (rde rs1 rs2 : RegId) : OpcodeOfEncoding.Statement (.fmulF32 rde rs1 rs2) :=
  (opcodeOf_packFields _ _ _).trans (show (0x47 : BitVec 8) = opcodeOf 0x00010047 by decide)
theorem OpcodeOfEncoding.fmulF64 (rde rs1 rs2 : RegId) : OpcodeOfEncoding.Statement (.fmulF64 rde rs1 rs2) :=
  (opcodeOf_packFields _ _ _).trans (show (0x47 : BitVec 8) = opcodeOf 0x00020047 by decide)
theorem OpcodeOfEncoding.fdivF16 (rde rs1 rs2 : RegId) : OpcodeOfEncoding.Statement (.fdivF16 rde rs1 rs2) :=
  (opcodeOf_packFields _ _ _).trans (show (0x48 : BitVec 8) = opcodeOf 0x00000048 by decide)
theorem OpcodeOfEncoding.fdivF32 (rde rs1 rs2 : RegId) : OpcodeOfEncoding.Statement (.fdivF32 rde rs1 rs2) :=
  (opcodeOf_packFields _ _ _).trans (show (0x48 : BitVec 8) = opcodeOf 0x00010048 by decide)
theorem OpcodeOfEncoding.fdivF64 (rde rs1 rs2 : RegId) : OpcodeOfEncoding.Statement (.fdivF64 rde rs1 rs2) :=
  (opcodeOf_packFields _ _ _).trans (show (0x48 : BitVec 8) = opcodeOf 0x00020048 by decide)
theorem OpcodeOfEncoding.fmaF16 (rde rs1 rs2 : RegId) : OpcodeOfEncoding.Statement (.fmaF16 rde rs1 rs2) :=
  (opcodeOf_packFields _ _ _).trans (show (0x49 : BitVec 8) = opcodeOf 0x00000049 by decide)
theorem OpcodeOfEncoding.fmaF32 (rde rs1 rs2 : RegId) : OpcodeOfEncoding.Statement (.fmaF32 rde rs1 rs2) :=
  (opcodeOf_packFields _ _ _).trans (show (0x49 : BitVec 8) = opcodeOf 0x00010049 by decide)
theorem OpcodeOfEncoding.fmaF64 (rde rs1 rs2 : RegId) : OpcodeOfEncoding.Statement (.fmaF64 rde rs1 rs2) :=
  (opcodeOf_packFields _ _ _).trans (show (0x49 : BitVec 8) = opcodeOf 0x00020049 by decide)
theorem OpcodeOfEncoding.fsqrtF16 (rde rs1 : RegId) : OpcodeOfEncoding.Statement (.fsqrtF16 rde rs1) :=
  (opcodeOf_packFields _ _ _).trans (show (0x4A : BitVec 8) = opcodeOf 0x0000004A by decide)
theorem OpcodeOfEncoding.fsqrtF32 (rde rs1 : RegId) : OpcodeOfEncoding.Statement (.fsqrtF32 rde rs1) :=
  (opcodeOf_packFields _ _ _).trans (show (0x4A : BitVec 8) = opcodeOf 0x0001004A by decide)
theorem OpcodeOfEncoding.fsqrtF64 (rde rs1 : RegId) : OpcodeOfEncoding.Statement (.fsqrtF64 rde rs1) :=
  (opcodeOf_packFields _ _ _).trans (show (0x4A : BitVec 8) = opcodeOf 0x0002004A by decide)
theorem OpcodeOfEncoding.fminF16 (rde rs1 rs2 : RegId) : OpcodeOfEncoding.Statement (.fminF16 rde rs1 rs2) :=
  (opcodeOf_packFields _ _ _).trans (show (0x4B : BitVec 8) = opcodeOf 0x0000004B by decide)
theorem OpcodeOfEncoding.fminF32 (rde rs1 rs2 : RegId) : OpcodeOfEncoding.Statement (.fminF32 rde rs1 rs2) :=
  (opcodeOf_packFields _ _ _).trans (show (0x4B : BitVec 8) = opcodeOf 0x0001004B by decide)
theorem OpcodeOfEncoding.fminF64 (rde rs1 rs2 : RegId) : OpcodeOfEncoding.Statement (.fminF64 rde rs1 rs2) :=
  (opcodeOf_packFields _ _ _).trans (show (0x4B : BitVec 8) = opcodeOf 0x0002004B by decide)
theorem OpcodeOfEncoding.fmaxF16 (rde rs1 rs2 : RegId) : OpcodeOfEncoding.Statement (.fmaxF16 rde rs1 rs2) :=
  (opcodeOf_packFields _ _ _).trans (show (0x4C : BitVec 8) = opcodeOf 0x0000004C by decide)
theorem OpcodeOfEncoding.fmaxF32 (rde rs1 rs2 : RegId) : OpcodeOfEncoding.Statement (.fmaxF32 rde rs1 rs2) :=
  (opcodeOf_packFields _ _ _).trans (show (0x4C : BitVec 8) = opcodeOf 0x0001004C by decide)
theorem OpcodeOfEncoding.fmaxF64 (rde rs1 rs2 : RegId) : OpcodeOfEncoding.Statement (.fmaxF64 rde rs1 rs2) :=
  (opcodeOf_packFields _ _ _).trans (show (0x4C : BitVec 8) = opcodeOf 0x0002004C by decide)
theorem OpcodeOfEncoding.fsatF16 (rde rs1 : RegId) : OpcodeOfEncoding.Statement (.fsatF16 rde rs1) :=
  (opcodeOf_packFields _ _ _).trans (show (0x4D : BitVec 8) = opcodeOf 0x0000004D by decide)
theorem OpcodeOfEncoding.fsatF32 (rde rs1 : RegId) : OpcodeOfEncoding.Statement (.fsatF32 rde rs1) :=
  (opcodeOf_packFields _ _ _).trans (show (0x4D : BitVec 8) = opcodeOf 0x0001004D by decide)
theorem OpcodeOfEncoding.fsatF64 (rde rs1 : RegId) : OpcodeOfEncoding.Statement (.fsatF64 rde rs1) :=
  (opcodeOf_packFields _ _ _).trans (show (0x4D : BitVec 8) = opcodeOf 0x0002004D by decide)
theorem OpcodeOfEncoding.fcnvF16F16 (rde rs1 : RegId) : OpcodeOfEncoding.Statement (.fcnvF16F16 rde rs1) :=
  (opcodeOf_packFields _ _ _).trans (show (0x4E : BitVec 8) = opcodeOf 0x0000004E by decide)
theorem OpcodeOfEncoding.fcnvF16F32 (rde rs1 : RegId) : OpcodeOfEncoding.Statement (.fcnvF16F32 rde rs1) :=
  (opcodeOf_packFields _ _ _).trans (show (0x4E : BitVec 8) = opcodeOf 0x0004004E by decide)
theorem OpcodeOfEncoding.fcnvF16F64 (rde rs1 : RegId) : OpcodeOfEncoding.Statement (.fcnvF16F64 rde rs1) :=
  (opcodeOf_packFields _ _ _).trans (show (0x4E : BitVec 8) = opcodeOf 0x0008004E by decide)
theorem OpcodeOfEncoding.fcnvF32F16 (rde rs1 : RegId) : OpcodeOfEncoding.Statement (.fcnvF32F16 rde rs1) :=
  (opcodeOf_packFields _ _ _).trans (show (0x4E : BitVec 8) = opcodeOf 0x0001004E by decide)
theorem OpcodeOfEncoding.fcnvF32F32 (rde rs1 : RegId) : OpcodeOfEncoding.Statement (.fcnvF32F32 rde rs1) :=
  (opcodeOf_packFields _ _ _).trans (show (0x4E : BitVec 8) = opcodeOf 0x0005004E by decide)
theorem OpcodeOfEncoding.fcnvF32F64 (rde rs1 : RegId) : OpcodeOfEncoding.Statement (.fcnvF32F64 rde rs1) :=
  (opcodeOf_packFields _ _ _).trans (show (0x4E : BitVec 8) = opcodeOf 0x0009004E by decide)
theorem OpcodeOfEncoding.fcnvF64F16 (rde rs1 : RegId) : OpcodeOfEncoding.Statement (.fcnvF64F16 rde rs1) :=
  (opcodeOf_packFields _ _ _).trans (show (0x4E : BitVec 8) = opcodeOf 0x0002004E by decide)
theorem OpcodeOfEncoding.fcnvF64F32 (rde rs1 : RegId) : OpcodeOfEncoding.Statement (.fcnvF64F32 rde rs1) :=
  (opcodeOf_packFields _ _ _).trans (show (0x4E : BitVec 8) = opcodeOf 0x0006004E by decide)
theorem OpcodeOfEncoding.fcnvF64F64 (rde rs1 : RegId) : OpcodeOfEncoding.Statement (.fcnvF64F64 rde rs1) :=
  (opcodeOf_packFields _ _ _).trans (show (0x4E : BitVec 8) = opcodeOf 0x000A004E by decide)
theorem OpcodeOfEncoding.fnanF16 (rde rs1 : RegId) : OpcodeOfEncoding.Statement (.fnanF16 rde rs1) :=
  (opcodeOf_packFields _ _ _).trans (show (0x4F : BitVec 8) = opcodeOf 0x0000004F by decide)
theorem OpcodeOfEncoding.fnanF32 (rde rs1 : RegId) : OpcodeOfEncoding.Statement (.fnanF32 rde rs1) :=
  (opcodeOf_packFields _ _ _).trans (show (0x4F : BitVec 8) = opcodeOf 0x0001004F by decide)
theorem OpcodeOfEncoding.fnanF64 (rde rs1 : RegId) : OpcodeOfEncoding.Statement (.fnanF64 rde rs1) :=
  (opcodeOf_packFields _ _ _).trans (show (0x4F : BitVec 8) = opcodeOf 0x0002004F by decide)

end Laws

end Sys2Proof
end

