-- ==== Sys2Proof/Tests/Slice0.lean ====
section
/-! SUPPORT. Tests: the refusals of the well-formedness checks, one word for each constructor from the tables of
95_test_vectors.md §2.4 to §2.12, the vectors of its Parts 1 and 2 for the units and the helper layers, one step of each
family on a small state, and a witness for the hypotheses of each statement that has some. -/
namespace Sys2Proof.Tests

open Sys2Proof Sys2Proof.Machine

/-! ### Well-formedness: what each check refuses and where its boundary lies (R73, R78, R107; §2.1, §2.3) -/

theorem test_slice_refused :
    sliceLegal .u16 .u64 4 = false ∧ sliceLegal .u8 .u8 1 = false ∧ sliceLegal .bool .u64 64 = false ∧
    sliceLegal .nibble .u32 8 = false ∧ sliceLegal .u32 .u64 2 = false ∧ sliceLegal .u64 .u64 1 = false ∧
    sliceLegal .u16 .u8 0 = false ∧ sliceLegal .bool .nibble 4 = false := by decide

theorem test_slice_accepted :
    sliceLegal .u16 .u64 3 = true ∧ sliceLegal .u8 .u8 0 = true ∧ sliceLegal .bool .u64 63 = true ∧
    sliceLegal .nibble .u32 7 = true ∧ sliceLegal .u64 .u64 0 = true ∧ sliceLegal .bool .nibble 3 = true := by decide

theorem test_slice_no_value : sliceRead .u16 .u64 4 0 = none ∧ sliceWrite .u8 .u8 1 0 0 = none := by decide

theorem test_wide_refused_e :
    WideRec.fitsE { rde := 16 } = false ∧ WideRec.fitsE { rs1 := 16 } = false ∧ WideRec.fitsE { rs2 := 16 } = false ∧
    WideRec.fitsE { func := 16 } = false ∧ WideRec.fitsE { imm := 256 } = false ∧
    WideRec.fitsE { rde := 15, rs1 := 15, rs2 := 15, func := 15, imm := 255 } = true := by decide

theorem test_wide_refused_r :
    WideRec.fitsR { rde := 16 } = false ∧ WideRec.fitsR { rs1 := 16 } = false ∧ WideRec.fitsR { rs2 := 16 } = false ∧
    WideRec.fitsR { imm := 4096 } = false ∧ WideRec.fitsR { rde := 15, rs1 := 15, rs2 := 15, imm := 4095 } = true := by
  decide

theorem test_wide_refused_m :
    WideRec.fitsM { rde := 16 } = false ∧ WideRec.fitsM { rs1 := 16 } = false ∧ WideRec.fitsM { imm := 65536 } = false ∧
    WideRec.fitsM { rde := 15, rs1 := 15, imm := 65535 } = true := by decide

theorem test_wide_refused_f :
    WideRec.fitsF { rde := 16 } = false ∧ WideRec.fitsF { func := 16 } = false ∧ WideRec.fitsF { imm := 65536 } = false ∧
    WideRec.fitsF { rde := 15, func := 15, imm := 65535 } = true := by decide

theorem test_wide_refused_b :
    WideRec.fitsB { func := 16 } = false ∧ WideRec.fitsB { imm := 1048576 } = false ∧
    WideRec.fitsB { func := 15, imm := 1048575 } = true := by decide

/-! ### Units (§2.1 to §2.3, §2.1 of Part 1) -/

theorem test_nibbles :
    nibbleLo 0xA7 = 7 ∧ nibbleHi 0xA7 = 0xA ∧ nibbleToHi 0xA = 0xA0 ∧ nibbleToLo 0xA = 0x0A ∧
    nibbleCompose 7 0xA = 0xA7 ∧ ∀ b : Byte, nibbleCompose (nibbleLo b) (nibbleHi b) = b := by decide

theorem test_slice_writes :
    sliceWrite .u8 .u64 7 0x1122334455667788 0xCD = some 0xCD22334455667788 ∧
    sliceWrite .u16 .u64 1 0x1122334455667788 0xBEEF = some 0x11223344BEEF7788 ∧
    sliceWrite .nibble .u64 5 0x1122334455667788 0xF = some 0x1122334455F67788 ∧
    sliceWrite .u64 .u64 0 0x1122334455667788 0x0123456789ABCDEF = some 0x0123456789ABCDEF ∧
    sliceWrite .bool .u8 3 0xFF (boolSlice false) = some 0xF7 ∧
    sliceWrite .bool .nibble 3 0 (boolSlice true) = some 8 ∧ sliceWrite .bool .nibble 9 0xF (boolSlice false) = some 0xF ∧
    sliceWriteWide .u8 .u16 0 0x1234 0x1FF = some 0x12FF := by decide

theorem test_slice_reads :
    sliceRead .u16 .u64 2 0x1122334455667788 = some 0x3344 ∧ sliceRead .nibble .u64 15 0x1122334455667788 = some 1 ∧
    (sliceRead .bool .u64 3 0x1122334455667788).map sliceBool = some true ∧
    (sliceRead .bool .u64 63 0x1122334455667788).map sliceBool = some false ∧
    (sliceRead .bool .nibble 4 0xF).map sliceBool = some false := by decide

theorem test_sign_extension :
    sext 8 0xFF = 0xFFFFFFFFFFFFFFFF ∧ sext 8 0x7F = 0x7F ∧ sext 16 0x8000 = 0xFFFFFFFFFFFF8000 ∧
    sext 1 1 = 0xFFFFFFFFFFFFFFFF ∧ sext 8 0x17F = 0x7F ∧ sext 20 0x80000 = 0xFFFFFFFFFFF80000 ∧
    sext 63 0x4000000000000000 = 0xC000000000000000 ∧ sext 64 0x8000000000000000 = 0x8000000000000000 := by decide

theorem test_unpack :
    unpackE 0xDEADBEEF = ⟨0xD, 0xE, 0xA, 0xD, 0xBE⟩ ∧ unpackR 0xDEADBEEF = ⟨0xD, 0xE, 0xA, 0xDBE⟩ ∧
    unpackM 0xDEADBEEF = ⟨0xD, 0xE, 0xADBE⟩ ∧ unpackF 0xDEADBEEF = ⟨0xD, 0xE, 0xADBE⟩ ∧
    unpackB 0xDEADBEEF = ⟨0xD, 0xEADBE⟩ := by decide

theorem test_pack_wide :
    packE (WideRec.toE { rde := 0x1F, func := 0x10, imm := 0x1FF }) 0x11 = 0xF000FF11 ∧
    packR (WideRec.toR { imm := 0xFFFF }) 0x20 = 0x000FFF20 ∧
    packM (WideRec.toM { rde := 1, rs1 := 2, imm := 0x12345 }) 0x21 = 0x12234521 ∧
    packF (WideRec.toF { func := 0x13, imm := 0xFFFFF }) 0x10 = 0x03FFFF10 ∧
    packB (WideRec.toB { func := 0x10, imm := 0xFFFFFFF }) 0x0A = 0x0FFFFF0A := by decide

theorem test_identifiers :
    intIdToField 0xFF = 0x00FF ∧ intIdOfField 0x0100 = none ∧ intIdOfField 0x00FF = some 0xFF ∧
    halfOfWord true 0xDEADBEEF = 0xDEAD ∧ halfOfWord false 0xDEADBEEF = 0xBEEF ∧
    instrWordLe 0x00000001 0x80000000 = true := by decide

/-! ### Words (§2.4 to §2.12): a word with every unused bit set, its instruction, and the instruction's encoding -/

/-- Each word decodes to its instruction, and the instruction encodes to the canonical word. -/
def wordsOk (l : List (InstrWord × Instr × InstrWord)) : Bool :=
  l.all fun x => decide (decode x.1 = .some x.2.1) && decide (encode x.2.1 = x.2.2)

theorem test_words_sysio : wordsOk
    [(0xF000F001, (.int 0xF0), 0x0000F001), (0xF1FFFF01, (.iret ), 0x01000001),
     (0xF2FFFF01, (.ires ), 0x02000001), (0xA3FFFF01, (.usr 10), 0xA3000001),
     (0xA5FFFF02, (.outr 10 5), 0xA5000002), (0xF5C3F003, (.outi 5 0xC3F0), 0x05C3F003),
     (0xA5FFFF04, (.inr 10 5), 0xA5000004), (0xAFC3F005, (.ini 10 0xC3F0), 0xA0C3F005)] = true := by decide

theorem test_words_control_1 : wordsOk
    [(0xF5C3F006, (.jal 5 0xC3F0), 0x05C3F006), (0xA5C3F007, (.jalr 10 5 0xC3F0), 0xA5C3F007),
     (0xFFFFFF08, (.ret ), 0x00000008), (0xF5FFFF09, (.retr 5), 0x05000009),
     (0x05C3F00A, (.bra 0x5C3F0), 0x05C3F00A), (0x15C3F00A, (.beq 0x5C3F0), 0x15C3F00A),
     (0x25C3F00A, (.bez 0x5C3F0), 0x25C3F00A), (0x35C3F00A, (.blt 0x5C3F0), 0x35C3F00A),
     (0x45C3F00A, (.ble 0x5C3F0), 0x45C3F00A), (0x55C3F00A, (.bltu 0x5C3F0), 0x55C3F00A),
     (0x65C3F00A, (.bleu 0x5C3F0), 0x65C3F00A), (0x95C3F00A, (.bne 0x5C3F0), 0x95C3F00A)] = true := by decide

theorem test_words_control_2 : wordsOk
    [(0xA5C3F00A, (.bnz 0x5C3F0), 0xA5C3F00A), (0xB5C3F00A, (.bge 0x5C3F0), 0xB5C3F00A),
     (0xC5C3F00A, (.bgt 0x5C3F0), 0xC5C3F00A), (0xD5C3F00A, (.bgeu 0x5C3F0), 0xD5C3F00A),
     (0xE5C3F00A, (.bgtu 0x5C3F0), 0xE5C3F00A)] = true := by decide

theorem test_words_stack_imm : wordsOk
    [(0xF5FFFF0B, (.push 5), 0x0500000B), (0xAFFFFF0C, (.pop 10), 0xA000000C),
     (0xFFFFFF0D, (.enter ), 0x0000000D), (0xFFFFFF0E, (.leave ), 0x0000000E),
     (0xA0C3F010, (.lli 10 0xC3F0), 0xA0C3F010), (0xA1C3F010, (.llis 10 0xC3F0), 0xA1C3F010),
     (0xA2C3F010, (.lui 10 0xC3F0), 0xA2C3F010), (0xA3C3F010, (.luis 10 0xC3F0), 0xA3C3F010),
     (0xA4C3F010, (.lti 10 0xC3F0), 0xA4C3F010), (0xA5C3F010, (.ltis 10 0xC3F0), 0xA5C3F010),
     (0xA6C3F010, (.ltui 10 0xC3F0), 0xA6C3F010), (0xA7C3F010, (.ltuis 10 0xC3F0), 0xA7C3F010)] = true := by decide

theorem test_words_load_store : wordsOk
    [(0xA5C3F011, (.lw 10 5 12 0x3 0xF0), 0xA5C3F011), (0xA5C3F012, (.lh 10 5 12 0x3 0xF0), 0xA5C3F012),
     (0xA5C3F013, (.lhs 10 5 12 0x3 0xF0), 0xA5C3F013), (0xA5C3F014, (.lq 10 5 12 0x3 0xF0), 0xA5C3F014),
     (0xA5C3F015, (.lqs 10 5 12 0x3 0xF0), 0xA5C3F015), (0xA5C3F016, (.lb 10 5 12 0x3 0xF0), 0xA5C3F016),
     (0xA5C3F017, (.lbs 10 5 12 0x3 0xF0), 0xA5C3F017), (0xA5C3F018, (.sw 10 5 12 0x3 0xF0), 0xA5C3F018),
     (0xA5C3F019, (.sh 10 5 12 0x3 0xF0), 0xA5C3F019), (0xA5C3F01A, (.sq 10 5 12 0x3 0xF0), 0xA5C3F01A),
     (0xA5C3F01B, (.sb 10 5 12 0x3 0xF0), 0xA5C3F01B)] = true := by decide

theorem test_words_compare : wordsOk
    [(0xA5FFFF1E, (.cmpr 10 5), 0xA500001E), (0xA1C3F01F, (.cmpi .immediateFirst 10 0xC3F0), 0xA1C3F01F)] = true := by decide

theorem test_words_alu_1 : wordsOk
    [(0xA5CFFF20, (.addr 10 5 12), 0xA5C00020), (0xA5C3F021, (.addi 10 5 0xC3F0), 0xA5C3F021),
     (0xA5CFFF22, (.subr 10 5 12), 0xA5C00022), (0xA5C3F023, (.subi 10 5 0xC3F0), 0xA5C3F023),
     (0xA5CFFF24, (.imulr 10 5 12), 0xA5C00024), (0xA5C3F025, (.imuli 10 5 0xC3F0), 0xA5C3F025),
     (0xA5CFFF26, (.idivr 10 5 12), 0xA5C00026), (0xA5C3F027, (.idivi 10 5 0xC3F0), 0xA5C3F027),
     (0xA5CFFF28, (.umulr 10 5 12), 0xA5C00028), (0xA5C3F029, (.umuli 10 5 0xC3F0), 0xA5C3F029),
     (0xA5CFFF2A, (.udivr 10 5 12), 0xA5C0002A), (0xA5C3F02B, (.udivi 10 5 0xC3F0), 0xA5C3F02B)] = true := by decide

theorem test_words_alu_2 : wordsOk
    [(0xA5CFFF2C, (.remr 10 5 12), 0xA5C0002C), (0xA5C3F02D, (.remi 10 5 0xC3F0), 0xA5C3F02D),
     (0xA5CFFF2E, (.modr 10 5 12), 0xA5C0002E), (0xA5C3F02F, (.modi 10 5 0xC3F0), 0xA5C3F02F),
     (0xA5CFFF30, (.andr 10 5 12), 0xA5C00030), (0xA5C3F031, (.andi 10 5 0xC3F0), 0xA5C3F031),
     (0xA5CFFF32, (.orr 10 5 12), 0xA5C00032), (0xA5C3F033, (.ori 10 5 0xC3F0), 0xA5C3F033),
     (0xA5CFFF34, (.norr 10 5 12), 0xA5C00034), (0xA5C3F035, (.nori 10 5 0xC3F0), 0xA5C3F035),
     (0xA5CFFF36, (.xorr 10 5 12), 0xA5C00036), (0xA5C3F037, (.xori 10 5 0xC3F0), 0xA5C3F037)] = true := by decide

theorem test_words_alu_3 : wordsOk
    [(0xA5CFFF38, (.shlr 10 5 12), 0xA5C00038), (0xA5C3F039, (.shli 10 5 0xC3F0), 0xA5C3F039),
     (0xA5CFFF3A, (.asrr 10 5 12), 0xA5C0003A), (0xA5C3F03B, (.asri 10 5 0xC3F0), 0xA5C3F03B),
     (0xA5CFFF3C, (.lsrr 10 5 12), 0xA5C0003C), (0xA5C3F03D, (.lsri 10 5 0xC3F0), 0xA5C3F03D),
     (0xA5CFFF3E, (.bitr 10 5 12), 0xA5C0003E), (0xA5C3F03F, (.biti 10 5 0xC3F0), 0xA5C3F03F)] = true := by decide

theorem test_words_float_1 : wordsOk
    [(0xA5F0FF40, (.fcmpF16 10 5), 0xA5000040), (0xA5F1FF40, (.fcmpF32 10 5), 0xA5010040),
     (0xA5F2FF40, (.fcmpF64 10 5), 0xA5020040), (0xA5F0FF41, (.ftoF16 10 5), 0xA5000041),
     (0xA5F1FF41, (.ftoF32 10 5), 0xA5010041), (0xA5F2FF41, (.ftoF64 10 5), 0xA5020041),
     (0xA5F0FF42, (.ffromF16 10 5), 0xA5000042), (0xA5F1FF42, (.ffromF32 10 5), 0xA5010042),
     (0xA5F2FF42, (.ffromF64 10 5), 0xA5020042), (0xA5F0FF43, (.fnegF16 10 5), 0xA5000043),
     (0xA5F1FF43, (.fnegF32 10 5), 0xA5010043), (0xA5F2FF43, (.fnegF64 10 5), 0xA5020043)] = true := by decide

theorem test_words_float_2 : wordsOk
    [(0xA5F0FF44, (.fabsF16 10 5), 0xA5000044), (0xA5F1FF44, (.fabsF32 10 5), 0xA5010044),
     (0xA5F2FF44, (.fabsF64 10 5), 0xA5020044), (0xA5C0FF45, (.faddF16 10 5 12), 0xA5C00045),
     (0xA5C1FF45, (.faddF32 10 5 12), 0xA5C10045), (0xA5C2FF45, (.faddF64 10 5 12), 0xA5C20045),
     (0xA5C0FF46, (.fsubF16 10 5 12), 0xA5C00046), (0xA5C1FF46, (.fsubF32 10 5 12), 0xA5C10046),
     (0xA5C2FF46, (.fsubF64 10 5 12), 0xA5C20046), (0xA5C0FF47, (.fmulF16 10 5 12), 0xA5C00047),
     (0xA5C1FF47, (.fmulF32 10 5 12), 0xA5C10047), (0xA5C2FF47, (.fmulF64 10 5 12), 0xA5C20047)] = true := by decide

theorem test_words_float_3 : wordsOk
    [(0xA5C0FF48, (.fdivF16 10 5 12), 0xA5C00048), (0xA5C1FF48, (.fdivF32 10 5 12), 0xA5C10048),
     (0xA5C2FF48, (.fdivF64 10 5 12), 0xA5C20048), (0xA5C0FF49, (.fmaF16 10 5 12), 0xA5C00049),
     (0xA5C1FF49, (.fmaF32 10 5 12), 0xA5C10049), (0xA5C2FF49, (.fmaF64 10 5 12), 0xA5C20049),
     (0xA5F0FF4A, (.fsqrtF16 10 5), 0xA500004A), (0xA5F1FF4A, (.fsqrtF32 10 5), 0xA501004A),
     (0xA5F2FF4A, (.fsqrtF64 10 5), 0xA502004A), (0xA5C0FF4B, (.fminF16 10 5 12), 0xA5C0004B),
     (0xA5C1FF4B, (.fminF32 10 5 12), 0xA5C1004B), (0xA5C2FF4B, (.fminF64 10 5 12), 0xA5C2004B)] = true := by decide

theorem test_words_float_4 : wordsOk
    [(0xA5C0FF4C, (.fmaxF16 10 5 12), 0xA5C0004C), (0xA5C1FF4C, (.fmaxF32 10 5 12), 0xA5C1004C),
     (0xA5C2FF4C, (.fmaxF64 10 5 12), 0xA5C2004C), (0xA5F0FF4D, (.fsatF16 10 5), 0xA500004D),
     (0xA5F1FF4D, (.fsatF32 10 5), 0xA501004D), (0xA5F2FF4D, (.fsatF64 10 5), 0xA502004D),
     (0xA5F0FF4E, (.fcnvF16F16 10 5), 0xA500004E), (0xA5F4FF4E, (.fcnvF16F32 10 5), 0xA504004E),
     (0xA5F8FF4E, (.fcnvF16F64 10 5), 0xA508004E), (0xA5F1FF4E, (.fcnvF32F16 10 5), 0xA501004E),
     (0xA5F5FF4E, (.fcnvF32F32 10 5), 0xA505004E), (0xA5F9FF4E, (.fcnvF32F64 10 5), 0xA509004E)] = true := by decide

theorem test_words_float_5 : wordsOk
    [(0xA5F2FF4E, (.fcnvF64F16 10 5), 0xA502004E), (0xA5F6FF4E, (.fcnvF64F32 10 5), 0xA506004E),
     (0xA5FAFF4E, (.fcnvF64F64 10 5), 0xA50A004E), (0xA5F0FF4F, (.fnanF16 10 5), 0xA500004F),
     (0xA5F1FF4F, (.fnanF32 10 5), 0xA501004F), (0xA5F2FF4F, (.fnanF64 10 5), 0xA502004F)] = true := by decide
/-- The refused words of §2.4 and Part 1 S7, by reason. -/
theorem test_words_refused :
    decode 0x00000000 = .none .badOpcode ∧ decode 0xFFFFFFFF = .none .badOpcode ∧
    decode 0x04000001 = .none .badSubcode ∧ decode 0x8000000A = .none .badSubcode ∧
    decode 0x0200001F = .none .badSubcode ∧ decode 0x08000010 = .none .badSubcode ∧
    decode 0x00030045 = .none .badSubcode ∧ decode 0x0003004E = .none .badSubcode ∧
    decode 0x000C004E = .none .badSubcode ∧ decode 0x00010001 = .none .badIntHighByte := by decide

/-! The counts of R137: rows, assigned opcodes, mnemonics. -/

set_option maxRecDepth 4000 in
theorem test_count_rows : opcodeRows.length = 136 := by decide

set_option maxRecDepth 4000 in
theorem test_count_opcodes :
    ((List.range 256).filter fun n => (familyOf (BitVec.ofNat 8 n)).isSome).length = 76 := by decide

set_option maxRecDepth 4000 in
theorem test_count_mnemonics : (allSamples.map Instr.mnemonic).dedup.length = 98 := by decide

theorem test_port :
    (decoderPort 0x123ABC20).simm = some 0xFFFFFFFFFFFFFABC ∧ (decoderPort 0x123ABC20).fmt = some .r ∧
    (decoderPort 0x7000000A).failReason = 2 ∧ (decoderPort 0x7000000A).fmt = some .b ∧
    (decoderPort 0x000000FF).fmt = none ∧ (decoderPort 0x00FF0501).uimm = some 0xFF05 := by decide

theorem test_table_word :
    decodeTableWord 32 0x12300020 = some (.addr 1 2 3) ∧ decodeTableWord 32 0x000000FF = none := by decide

/-- FCNV_SPLIT the other way round, from = func[3:2] and to = func[1:0]: the source leaves the split open (R126, U9). -/
def swappedSplit : SubcodeTable (FloatPrec × FloatPrec) where
  ofCode? n := (fcnvSplit n).map Prod.swap
  code p := fcnvCode p.2 p.1

/-- The default parameters with another FCNV_SPLIT. -/
def withSplit (T : SubcodeTable (FloatPrec × FloatPrec)) : BlockParams := { defaultParams with fcnv := T }

theorem swappedSplit_lawful : swappedSplit.Lawful :=
  SubcodeTable.lawful_of _ (by rintro ⟨a, b⟩; cases a <;> cases b <;> rfl) (by decide)

theorem withSplit_lawful {T : SubcodeTable (FloatPrec × FloatPrec)} (h : T.Lawful) : (withSplit T).Lawful :=
  { defaultParams_lawful with fcnv := h }

/-- The same word is a cast from half to single, or from single to half, as FCNV_SPLIT says. -/
theorem test_split_parameter :
    decode 0x1204004E = .some (.fcnvF16F32 1 2) ∧
    decodeWith (withSplit swappedSplit) 0x1204004E = .some (.fcnvF32F16 1 2) ∧
    encodeWith (withSplit swappedSplit) (.fcnvF32F16 1 2) = 0x1204004E := by decide

/-- OPERAND_ROLES at another value: `push` has its register in the field rde, and `add` of registers uses its 12-bit
immediate too (R6, R132). -/
def otherRoles : BlockParams :=
  { defaultParams with
    used := fun h => match h with
      | .single .push => { rde := 0xF }
      | .single (.aluReg .add) => { rde := 0xF, rs1 := 0xF, rs2 := 0xF, imm := 0xFFF }
      | h => h.defaultUsed
    roles := fun h => match h with
      | .single .push => Equiv.swap .rde .rs1
      | _ => Equiv.refl _ }

theorem otherRoles_fits (h : Head) :
    ((otherRoles.used h).union h.dispatchMask).within (defaultParams.formatOf h.kind).mask ∧
    (otherRoles.used h).mask h.dispatchMask = {} ∧ (h.defaultUsed.place (otherRoles.roles h)).within (otherRoles.used h) := by
  have base := And.intro (defaultUsed_fits h).1 (And.intro (defaultUsed_fits h).2 (defaultParams_coversInstr h))
  match h with
  | .single m => cases m <;> first | exact base | decide | (rename_i a; cases a <;> first | exact base | decide)
  | .sysctl _ | .branch _ | .loadImm _ | .cmpi _ | .float _ _ | .fcnv _ _ => exact base

theorem otherRoles_lawful : otherRoles.Lawful :=
  { defaultParams_lawful with fields := fun h => (otherRoles_fits h).1, disjoint := fun h => (otherRoles_fits h).2.1 }

/-- OPERAND_ROLES as a parameter: the operand's field, the bits that the variant carries, and the canonical word. -/
theorem test_operand_roles :
    decodeWith otherRoles 0xA7FFFF0B = .some (.push 10) ∧ decode 0xA7FFFF0B = .some (.push 7) ∧
    encodeWith otherRoles (.push 10) = 0xA000000B ∧ canonWith otherRoles 0xA7FFFF0B = some 0xA000000B ∧
    canon 0xA7FFFF0B = some 0x0700000B ∧
    decodeVariant otherRoles 0x123ABC20 =
      .ok { head := .single (.aluReg .add), operands := { rde := 1, rs1 := 2, rs2 := 3, imm := 0xABC } } ∧
    canonWith otherRoles 0x123ABC20 = some 0x123ABC20 ∧ canon 0x123ABC20 = some 0x12300020 := by decide

/-- SUBCODE_ASSIGNMENT and OPCODE_ASSIGNMENT as parameters: the float precisions in another order, `push` and `pop` with
their opcodes exchanged. -/
theorem test_assignment_parameters :
    decodeWith { defaultParams with prec := ⟨fun n => FloatPrec.ofCode? (2 - n), fun p => 2 - p.code⟩ } 0x12300045 =
      .some (.faddF64 1 2 3) ∧
    decodeWith { defaultParams with kindOf := fun op => if op = 0x0B then some (.single .pop) else defaultKindOf op } 0xA000000B =
      .some (.pop 10) := by decide

/-! ### Arithmetic helper layer (Part 1 S4, S5; §2.14) -/

theorem test_add :
    helperAdd 0xFFFFFFFFFFFFFFFF 1 false = ⟨0, true, false⟩ ∧
    helperAdd 0x7FFFFFFFFFFFFFFF 1 false = ⟨0x8000000000000000, false, true⟩ ∧
    helperAdd 0xFFFFFFFFFFFFFFFF 0 true = ⟨0, true, false⟩ ∧
    helperAdd 0x7FFFFFFFFFFFFFFF 0 true = ⟨0x8000000000000000, false, true⟩ ∧
    helperAdd 0x8000000000000000 0xFFFFFFFFFFFFFFFF true = ⟨0x8000000000000000, true, true⟩ := by decide

theorem test_sub :
    helperSub 0 1 false = ⟨0xFFFFFFFFFFFFFFFF, true, false⟩ ∧ helperSub 0 0 true = ⟨0xFFFFFFFFFFFFFFFF, true, false⟩ ∧
    helperSub 0x8000000000000000 0 true = ⟨0x7FFFFFFFFFFFFFFF, false, true⟩ ∧
    helperSub 5 3 true = ⟨1, false, false⟩ ∧
    helperSub 0x7FFFFFFFFFFFFFFF 0xFFFFFFFFFFFFFFFF false = ⟨0x8000000000000000, true, true⟩ := by decide

/-- The 64-bit pattern of an integer. -/
abbrev int64 (v : Int) : Word := BitVec.ofInt 64 v

theorem test_multiply :
    helperImul (int64 (-3)) 5 = 0xFFFFFFFFFFFFFFF1 ∧ helperUmul 0xFFFFFFFFFFFFFFFD 5 = 0xFFFFFFFFFFFFFFF1 ∧
    helperImul 0x100000000 0x100000000 = 0 ∧ helperImul 0x7FFFFFFFFFFFFFFF 2 = 0xFFFFFFFFFFFFFFFE := by decide

theorem test_divide :
    helperIdiv 7 2 = some 3 ∧ helperIdiv (int64 (-7)) 2 = some (int64 (-3)) ∧
    helperIdiv 7 (int64 (-2)) = some (int64 (-3)) ∧ helperIdiv (int64 (-7)) (int64 (-2)) = some 3 ∧
    helperIdiv 0x8000000000000000 0xFFFFFFFFFFFFFFFF = none ∧ helperIdiv 5 0 = none ∧
    helperIdiv 0x8000000000000000 1 = some 0x8000000000000000 ∧
    helperUdiv 0xFFFFFFFFFFFFFFF9 2 = some 0x7FFFFFFFFFFFFFFC ∧ helperUdiv 0xFFFFFFFFFFFFFFFF 0 = none := by decide

theorem test_remainders :
    helperRem (int64 (-7)) 3 = some (int64 (-1)) ∧ helperRem 7 (int64 (-3)) = some 1 ∧
    helperRem 0x8000000000000000 0xFFFFFFFFFFFFFFFF = none ∧ helperMod (int64 (-7)) 3 = some 2 ∧
    helperMod 7 (int64 (-3)) = some 1 ∧ helperMod (int64 (-7)) (int64 (-3)) = some 2 ∧
    helperMod (int64 (-6)) 3 = some 0 ∧ helperMod 0x8000000000000000 0xFFFFFFFFFFFFFFFF = none := by decide

theorem test_shifts :
    helperShl 1 63 = 0x8000000000000000 ∧ helperShr 0x8000000000000000 63 = 1 ∧
    helperAsr 0x8000000000000000 63 = 0xFFFFFFFFFFFFFFFF ∧ helperAsr 0x4000000000000000 62 = 1 ∧
    helperBit 0x8000000000000000 63 = 1 ∧ helperBit 0x8000000000000000 62 = 0 ∧
    helperNor 0 0 = 0xFFFFFFFFFFFFFFFF := by decide

/-! ### Float layer (Part 1 S6; §2.15), in every rounding direction -/

theorem test_ceiling :
    floatCeil .single 0x3FC00000 = (0x40000000 : BitVec 32) ∧ floatCeil .single 0xBFC00000 = (0xBF800000 : BitVec 32) ∧
    floatCeil .double 0x4000000000000000 = (0x4000000000000000 : BitVec 64) := by
  unfold floatCeil opResult
  generalize Config.rounding .fsat .single = m
  generalize Config.rounding .fsat .double = n
  refine ⟨?_, ?_, ?_⟩
  · cases m <;> decide
  · cases m <;> decide
  · cases n <;> decide

theorem test_nan :
    floatNanTest .single (0x7FC00000 : BitVec 32) = 1 ∧ floatNanTest .single (0x7F800000 : BitVec 32) = 0 ∧
    floatNanTest .half (0x7E00 : BitVec 16) = 1 ∧ floatNanTest .double (0xFFF8000000000001 : BitVec 64) = 1 := by decide

theorem test_sign_operations :
    floatNeg .single (0 : BitVec 32) = (0x80000000 : BitVec 32) ∧
    floatAbs .double (0x8000000000000000 : BitVec 64) = (0 : BitVec 64) := by decide

theorem test_truncation :
    truncValue (floatValue .single (0x40490FDB : BitVec 32)) = some 3 ∧
    truncValue (floatValue .single (0xC0490FDB : BitVec 32)) = some (-3) ∧
    truncValue (floatValue .half (0x7C00 : BitVec 16)) = none := by decide

theorem test_to_integer : floatToInt .single (0x7FC00000 : BitVec 32) = 0 ∧
    floatToInt .single (0x7F800000 : BitVec 32) = 0 := by decide

theorem test_casts :
    floatCast .single .double (0x3FC00000 : BitVec 32) = (0x3FF8000000000000 : BitVec 64) ∧
    floatCast .double .single (0x3FF8000000000000 : BitVec 64) = (0x3FC00000 : BitVec 32) ∧
    floatCast .half .single (0x3C00 : BitVec 16) = (0x3F800000 : BitVec 32) := by
  unfold floatCast
  generalize Config.rounding .fcnv .double = m
  generalize Config.rounding .fcnv .single = n
  refine ⟨?_, ?_, ?_⟩
  · cases m <;> decide
  · cases n <;> decide
  · cases n <;> decide

/-- fma.f32: 1.0 + 2.0 * 3.0 = 7.0, with one rounding or two. -/
theorem test_fma :
    floatFma .single (0x3F800000 : BitVec 32) (0x40000000 : BitVec 32) (0x40400000 : BitVec 32) =
      (0x40E00000 : BitVec 32) := by
  unfold floatFma opResult
  generalize Config.fmaRoundsOnce .single = once
  generalize Config.rounding .fma .single = m
  cases once <;> cases m <;> decide

/-- 1/3, -1/3 and the square root of 2 in single precision, and 65504 + 16 in half, by rounding direction. -/
theorem test_roundings :
    roundQuotient .single .nearestEven false 1 3 0 = (0x3EAAAAAB : BitVec 32) ∧
    roundQuotient .single .towardZero false 1 3 0 = (0x3EAAAAAA : BitVec 32) ∧
    roundQuotient .single .towardPositive true 1 3 0 = (0xBEAAAAAA : BitVec 32) ∧
    roundQuotient .single .towardNegative true 1 3 0 = (0xBEAAAAAB : BitVec 32) ∧
    roundValue .single .nearestEven 0 (sqrtValue .single (floatValue .single (0x40000000 : BitVec 32))) =
      (0x3FB504F3 : BitVec 32) ∧
    roundQuotient .half .nearestEven false 65520 1 0 = (0x7C00 : BitVec 16) ∧
    roundQuotient .half .towardZero false 65520 1 0 = (0x7BFF : BitVec 16) ∧
    roundQuotient .half .nearestEven false 3 2 (-25) = (0x0001 : BitVec 16) := by decide

/-! ### One step of each family on a small state -/

/-- The state after reset with some registers set. -/
def withRegs (l : List (RegId × Word)) : State := l.foldl (fun s p => s.setReg p.1 p.2) State.reset

/-- A register after an instruction. -/
def regAfter (i : Instr) (s : State) (r : RegId) : Option Word :=
  match exec i s with
  | .next t => some (t.reg r)
  | .fault _ => none
  | .refused _ => none

/-- The program counter after an instruction. -/
def pcAfter (i : Instr) (s : State) : Option Word :=
  match exec i s with
  | .next t => some t.pc
  | .fault _ => none
  | .refused _ => none

/-- The flags equal, less-than signed and less-than unsigned after an instruction. -/
def flagsAfter (i : Instr) (s : State) : Option (Bool × Bool × Bool) :=
  match exec i s with
  | .next t => some (t.flags.eq, t.flags.lt, t.flags.ltu)
  | .fault _ => none
  | .refused _ => none

/-- What the machine told the outside in an instruction. -/
def outAfter (i : Instr) (s : State) : Option (List IntCommand × List PortWrite × Nat) :=
  match exec i s with
  | .next t => some (t.intCmds, t.portOuts, t.draws)
  | .fault _ => none
  | .refused _ => none

theorem test_system_control :
    outAfter (.int 5) State.reset = some ([.raised 5], [], 1) ∧ outAfter .iret State.reset = some ([.returned], [], 1) ∧
    outAfter .ires State.reset = some ([.resolved], [], 0) ∧ pcAfter .ires State.reset = some 4 ∧
    pcAfter (.usr 3) (withRegs [(3, 0x40)]) = some 0x40 := by decide

theorem test_ports :
    outAfter (.outr 1 2) (withRegs [(1, 0x12345), (2, 7)]) = some ([], [⟨0x2345, 7⟩], 0) ∧
    outAfter (.outi 2 0x10) (withRegs [(2, 9)]) = some ([], [⟨0x10, 9⟩], 0) ∧
    outAfter (.inr 1 2) State.reset = some ([], [], 1) ∧ outAfter (.ini 1 0xABCD) State.reset = some ([], [], 1) := by
  decide

theorem test_input_value : regAfter (.ini 1 0xABCD) State.reset 1 = some (Config.portInput 0xABCD 0) := rfl

/-- 95_test_vectors.md P3: `jalr r2, r1, 0` at 4 and `retr r2`; a link register that is also the base. -/
theorem test_calls :
    pcAfter (.jalr 2 1 0) ((withRegs [(1, 0x18)]).setPc 4) = some 0x18 ∧
    regAfter (.jalr 2 1 0) ((withRegs [(1, 0x18)]).setPc 4) 2 = some 8 ∧
    pcAfter (.jalr 1 1 0xFFFF) ((withRegs [(1, 0x18)]).setPc 4) = some 4 ∧
    pcAfter (.retr 2) (withRegs [(2, 8)]) = some 8 := by decide

/-- Branches from 0x100 on the flags of 1 compared with -1: not equal, not less signed, less unsigned. -/
theorem test_branches :
    let s := (State.reset.setPc 0x100).setFlags { eq := false, zero := false, lt := false, ltu := true }
    pcAfter (.bra 2) s = some 0x108 ∧ pcAfter (.beq 2) s = some 0x104 ∧ pcAfter (.bne 0xFFFFE) s = some 0xF8 ∧
    pcAfter (.bez 2) s = some 0x104 ∧ pcAfter (.bnz 2) s = some 0x108 ∧ pcAfter (.blt 2) s = some 0x104 ∧
    pcAfter (.ble 2) s = some 0x104 ∧ pcAfter (.bge 2) s = some 0x108 ∧ pcAfter (.bgt 2) s = some 0x108 ∧
    pcAfter (.bltu 2) s = some 0x108 ∧ pcAfter (.bleu 2) s = some 0x108 ∧ pcAfter (.bgeu 2) s = some 0x104 ∧
    pcAfter (.bgtu 2) s = some 0x104 := by decide

/-- Where the branches differ when the flags say equal. -/
theorem test_branches_equal :
    let s := State.reset.setFlags { eq := true, zero := true, lt := false, ltu := false }
    pcAfter (.beq 2) s = some 8 ∧ pcAfter (.bne 2) s = some 4 ∧ pcAfter (.bez 2) s = some 8 ∧
    pcAfter (.ble 2) s = some 8 ∧ pcAfter (.bgt 2) s = some 4 ∧ pcAfter (.bleu 2) s = some 8 ∧
    pcAfter (.bgtu 2) s = some 4 := by decide

theorem test_load_immediates :
    let s := withRegs [(1, 0x1122334455667788)]
    regAfter (.lli 1 0x8765) s 1 = some 0x1122334455668765 ∧ regAfter (.lui 1 0x8765) s 1 = some 0x1122334487657788 ∧
    regAfter (.lti 1 0x8765) s 1 = some 0x1122876555667788 ∧ regAfter (.ltui 1 0x8765) s 1 = some 0x8765334455667788 ∧
    regAfter (.llis 1 0x8765) s 1 = some 0xFFFFFFFFFFFF8765 ∧ regAfter (.luis 1 0x8765) s 1 = some 0xFFFFFFFF87650000 ∧
    regAfter (.ltis 1 0x8765) s 1 = some 0xFFFF876500000000 ∧
    regAfter (.ltuis 1 0x8765) s 1 = some 0x8765000000000000 := by decide

/-- Bytes F0 81 at 0x1008 and 0x1009, in both data byte orders: the loads of 4, 2 and 1 bytes. -/
theorem test_loads :
    let s : State := { withRegs [(1, 0x1000), (2, 1)] with mem := [(0x1008, 0xF0), (0x1009, 0x81)] }
    let h := match Config.dataOrder with
      | .little => (0x81F0 : Word)
      | .big => 0xF0810000
    let q := match Config.dataOrder with
      | .little => (0x81F0 : Word)
      | .big => 0xF081
    regAfter (.lh 3 1 2 3 0) s 3 = some h ∧ regAfter (.lhs 3 1 2 3 0) s 3 = some (sext 32 h) ∧
    regAfter (.lq 3 1 2 3 0) s 3 = some q ∧ regAfter (.lqs 3 1 2 3 0) s 3 = some (sext 16 q) ∧
    regAfter (.lb 3 1 2 3 0) s 3 = some 0xF0 ∧ regAfter (.lbs 3 1 2 3 1) s 3 = some 0xFFFFFFFFFFFFFF81 ∧
    regAfter (.lw 3 1 2 3 0xF8) s 3 = some 0 := by
  simp only [regAfter, exec, execLh, execLhs, execLq, execLqs, execLb, execLbs, execLw, State.memRead, Memory.readDatum]
  generalize Config.dataOrder = o
  cases o <;> decide

/-- `sq` of 0x11223344 at 0x1009: the two bytes in both orders, and the byte after them. -/
theorem test_store :
    let s := withRegs [(1, 0x1001), (2, 1), (3, 0x11223344)]
    let low := match Config.dataOrder with
      | .little => (0x44 : Byte)
      | .big => 0x33
    (match exec (.sq 3 1 2 3 0) s with
      | .next t => some (t.readByte 0x1009, t.readByte 0x100B)
      | .fault _ => none
      | .refused _ => none) = some (low, 0) := by
  simp only [exec, execSq, State.memWrite, Memory.writeDatum]
  generalize Config.dataOrder = o
  cases o <;> decide

theorem test_memory_canonical :
    Memory.write [] 5 7 = [(5, 7)] ∧ Memory.write [(5, 7)] 5 0 = [] ∧
    Memory.write [(3, 1), (5, 7)] 4 2 = [(3, 1), (4, 2), (5, 7)] ∧ Memory.wf [(3, 1), (3, 2)] = false ∧
    Memory.wf [(5, 7), (3, 1)] = false ∧ Memory.wf [(3, 0)] = false := by decide

theorem test_compares :
    flagsAfter (.cmpr 1 2) (withRegs [(1, 1), (2, int64 (-1))]) = some (false, false, true) ∧
    flagsAfter (.cmpr 2 1) (withRegs [(1, 1), (2, int64 (-1))]) = some (false, true, false) ∧
    flagsAfter (.cmpr 1 1) State.reset = some (true, false, false) := by decide

theorem test_compare_immediate :
    flagsAfter (.cmpi .registerFirst 1 6) (withRegs [(1, 5)]) = some (false, true, true) ∧
    flagsAfter (.cmpi .immediateFirst 1 6) (withRegs [(1, 5)]) = some (false, false, false) := by
  simp only [flagsAfter, exec, execCmpi, cmpImm]
  generalize Config.cmpImmExt = e
  cases e <;> decide

theorem test_alu_registers :
    let s := withRegs [(2, int64 (-7)), (3, 3)]
    regAfter (.addr 1 2 3) s 1 = some (int64 (-4)) ∧ regAfter (.subr 1 2 3) s 1 = some (int64 (-10)) ∧
    regAfter (.imulr 1 2 3) s 1 = some (int64 (-21)) ∧ regAfter (.umulr 1 2 3) s 1 = some (int64 (-21)) ∧
    regAfter (.idivr 1 2 3) s 1 = some (int64 (-2)) ∧ regAfter (.udivr 1 2 3) s 1 = some 0x5555555555555553 ∧
    regAfter (.remr 1 2 3) s 1 = some (int64 (-1)) ∧ regAfter (.modr 1 2 3) s 1 = some 2 ∧
    regAfter (.andr 1 2 3) s 1 = some 1 ∧ regAfter (.orr 1 2 3) s 1 = some (int64 (-5)) ∧
    regAfter (.norr 1 2 3) s 1 = some 4 ∧ regAfter (.xorr 1 2 3) s 1 = some (int64 (-6)) ∧
    regAfter (.shlr 1 2 3) s 1 = some (int64 (-56)) ∧ regAfter (.asrr 1 2 3) s 1 = some (int64 (-1)) ∧
    regAfter (.lsrr 1 2 3) s 1 = some 0x1FFFFFFFFFFFFFFF ∧ regAfter (.bitr 1 2 3) s 1 = some 1 := by decide

theorem test_alu_immediates :
    let s := withRegs [(2, int64 (-7))]
    regAfter (.addi 1 2 3) s 1 = some (int64 (-4)) ∧ regAfter (.subi 1 2 3) s 1 = some (int64 (-10)) ∧
    regAfter (.imuli 1 2 3) s 1 = some (int64 (-21)) ∧ regAfter (.umuli 1 2 3) s 1 = some (int64 (-21)) ∧
    regAfter (.idivi 1 2 3) s 1 = some (int64 (-2)) ∧ regAfter (.udivi 1 2 3) s 1 = some 0x5555555555555553 ∧
    regAfter (.remi 1 2 3) s 1 = some (int64 (-1)) ∧ regAfter (.modi 1 2 3) s 1 = some 2 := by
  simp only [regAfter, exec, execAddi, execSubi, execImuli, execUmuli, execIdivi, execUdivi, execRemi, execModi, aluImm]
  generalize Config.aluImmExt .add = e1
  generalize Config.aluImmExt .sub = e2
  generalize Config.aluImmExt .imul = e3
  generalize Config.aluImmExt .umul = e4
  generalize Config.aluImmExt .idiv = e5
  generalize Config.aluImmExt .udiv = e6
  generalize Config.aluImmExt .rem = e7
  generalize Config.aluImmExt .mod = e8
  refine ⟨?_, ?_, ?_, ?_, ?_, ?_, ?_, ?_⟩
  · cases e1 <;> decide
  · cases e2 <;> decide
  · cases e3 <;> decide
  · cases e4 <;> decide
  · cases e5 <;> decide
  · cases e6 <;> decide
  · cases e7 <;> decide
  · cases e8 <;> decide

theorem test_alu_immediates_bits :
    let s := withRegs [(2, int64 (-7))]
    regAfter (.andi 1 2 3) s 1 = some 1 ∧ regAfter (.ori 1 2 3) s 1 = some (int64 (-5)) ∧
    regAfter (.nori 1 2 3) s 1 = some 4 ∧ regAfter (.xori 1 2 3) s 1 = some (int64 (-6)) ∧
    regAfter (.shli 1 2 3) s 1 = some (int64 (-56)) ∧ regAfter (.asri 1 2 3) s 1 = some (int64 (-1)) ∧
    regAfter (.lsri 1 2 3) s 1 = some 0x1FFFFFFFFFFFFFFF ∧ regAfter (.biti 1 2 3) s 1 = some 1 := by
  simp only [regAfter, exec, execAndi, execOri, execNori, execXori, execShli, execAsri, execLsri, execBiti, aluImm]
  generalize Config.aluImmExt .and = e1
  generalize Config.aluImmExt .or = e2
  generalize Config.aluImmExt .nor = e3
  generalize Config.aluImmExt .xor = e4
  generalize Config.aluImmExt .shl = e5
  generalize Config.aluImmExt .asr = e6
  generalize Config.aluImmExt .lsr = e7
  generalize Config.aluImmExt .bit = e8
  refine ⟨?_, ?_, ?_, ?_, ?_, ?_, ?_, ?_⟩
  · cases e1 <;> decide
  · cases e2 <;> decide
  · cases e3 <;> decide
  · cases e4 <;> decide
  · cases e5 <;> decide
  · cases e6 <;> decide
  · cases e7 <;> decide
  · cases e8 <;> decide

theorem test_float_tests :
    regAfter (.fnanF32 1 2) (withRegs [(2, 0x7FC00000)]) 1 = some 1 ∧
    regAfter (.fnanF16 1 2) (withRegs [(2, 0x7FC00000)]) 1 = some 0 ∧
    flagsAfter (.fcmpF32 1 2) (withRegs [(1, 0xBF800000), (2, 0x3F800000)]) =
      some (false, true, Config.floatCompareLtu .single 0xBF800000 0x3F800000) := by
  refine ⟨by decide, by decide, rfl⟩

/-- `fadd.f32` of 1.5 and 1.5 into a register whose upper half is set. -/
theorem test_float_add :
    regAfter (.faddF32 1 2 2) (withRegs [(1, 0x1234567800000000), (2, 0x3FC00000)]) 1 =
      some (match Config.floatUpperBits with
        | .preserve => 0x1234567840400000
        | .zero => 0x40400000) := by
  simp only [regAfter, exec, execFaddF32, State.floatTo, placeFloat, floatAdd, opResult]
  generalize Config.rounding .fadd .single = m
  generalize Config.floatUpperBits = u
  cases m <;> cases u <;> decide

theorem test_step_faults : (match step State.reset with
    | .fault f => some f
    | .next _ => none
    | .refused _ => none) = some .badOpcode := by decide

theorem test_step_runs : (match step (State.reset.withFetchWord 32 0x21FFFE10) with
    | .next t => some (t.reg 2, t.pc)
    | .fault _ => none
    | .refused _ => none) = some (0xFFFFFFFFFFFFFFFE, 4) := by decide

/-! ### Witnesses: a state and operands that meet the hypotheses of each statement that has some, for each clause -/

theorem witness_ReencodeIsCanonical :
    decode 0x123ABC20 = .some (.addr 1 2 3) ∧ isCanonical 0x123ABC20 = false ∧
    decode 0x12300020 = .some (.addr 1 2 3) ∧ isCanonical 0x12300020 = true := by decide

theorem witness_DecodedWordMatchesOneRow : decode 0x123ABC20 = .some (.addr 1 2 3) := by decide

theorem witness_UnassignedOpcodesFail :
    familyOf (opcodeOf 0x000000FF) = none ∧ familyOf (opcodeOf 0x12345650) = none ∧
    familyOf (opcodeOf 0xFFFFFF0F) = none := by decide

theorem witness_InterruptOperand :
    opcodeOf 0x0000FF01 = 0x01 ∧ (0x0000FF01 : InstrWord).extractLsb' 24 4 = 0 ∧
    (0x0000FF01 : InstrWord).extractLsb' 16 8 = 0 ∧ opcodeOf 0x00010001 = 0x01 ∧
    (0x00010001 : InstrWord).extractLsb' 24 4 = 0 ∧ decode 0x00010001 = .none .badIntHighByte := by decide

theorem witness_SliceIsolation :
    sliceLegal .bool .u64 63 = true ∧ sliceLegal .u64 .u64 0 = true ∧ sliceLegal .nibble .u8 1 = true := by decide

theorem witness_SignExtension :
    (1 : Word).getLsbD (1 - 1) = true ∧ (2 : Word).getLsbD (1 - 1) = false ∧
    (0x8000000000000000 : Word).getLsbD (64 - 1) = true ∧ (1 : Word).getLsbD (64 - 1) = false := by decide

theorem witness_UnsignedDivideHelper : helperUdiv 7 2 = some 3 ∧ helperUdiv 7 0 = none := by decide

theorem witness_RemainderHelper :
    helperRem (int64 (-7)) 3 = some (int64 (-1)) ∧ (int64 (-7)).toInt ≤ 0 ∧ helperRem 7 (int64 (-3)) = some 1 ∧
    0 ≤ (7 : Word).toInt := by decide

theorem witness_ModuloHelper : helperMod (int64 (-7)) (int64 (-3)) = some 2 := by decide

theorem witness_ShiftAndBitHelpers : (63 : Word).toNat < 64 ∧ 64 ≤ (64 : Word).toNat := by decide

theorem witness_StepRunsDecodedInstruction :
    decode (State.reset.withFetchWord 32 0x12300020).fetch = .some (.addr 1 2 3) := by decide

/-- The premise on memory of RunsAnEncodedInstruction, CallsAndReturns, PushAndPop, EnterAndLeave, Stores and StoreThenLoad,
met by the state after reset. -/
theorem witness_memoryOk : State.reset.memoryOk := rfl

theorem witness_HistoriesGrow : ∃ t, step (State.reset.withFetchWord 32 0x02FFFF03) = .next t ∧ t.portOuts ≠ [] :=
  ⟨_, rfl, by decide⟩

theorem witness_StepKeepsMemoryForm : (State.reset.withFetchWord 32 0x02FFFF03).memoryOk ∧
    ∃ t, step (State.reset.withFetchWord 32 0x02FFFF03) = .next t := ⟨rfl, _, rfl⟩

theorem witness_OnlyStoresChangeMemory :
    (∃ t, exec (.addr 1 2 3) State.reset = .next t) ∧ (Instr.addr 1 2 3).storesToMemory = false :=
  ⟨⟨_, rfl⟩, rfl⟩

theorem witness_OnlyComparesChangeFlags :
    (∃ t, exec (.sw 1 2 3 4 5) State.reset = .next t) ∧ (Instr.sw 1 2 3 4 5).setsFlags = false := ⟨⟨_, rfl⟩, rfl⟩

/-- An instruction that is no division, a division whose helper does not fail, `ires` and `usr`. -/
theorem witness_ModeChanges :
    (∃ t, exec (.addr 1 2 3) State.reset = .next t) ∧ (Instr.addr 1 2 3).isSystemControl = false ∧
    ¬ (Instr.addr 1 2 3).DivisionFails State.reset ∧
    (∃ t, exec (.udivr 1 2 3) (withRegs [(3, 1)]) = .next t) ∧ (Instr.udivr 1 2 3).isSystemControl = false ∧
    ¬ (Instr.udivr 1 2 3).DivisionFails (withRegs [(3, 1)]) ∧ (∃ t, exec .ires State.reset = .next t) ∧
    ∃ t, exec (.usr 15) State.reset = .next t :=
  ⟨⟨_, rfl⟩, rfl, id, ⟨_, rfl⟩, rfl, show ¬ (withRegs [(3, 1)]).reg 3 = 0 by decide, ⟨_, rfl⟩, ⟨_, rfl⟩⟩

/-- Two registers that are not the stack pointer, whichever it is. -/
theorem witness_StackRoundTrips : State.reset.memoryOk ∧ spReg + 1 ≠ spReg ∧ spReg + 15 ≠ spReg := by
  refine ⟨rfl, ?_, ?_⟩
  · generalize spReg = r
    revert r
    decide
  · generalize spReg = r
    revert r
    decide

theorem witness_ReadDatumBytes : (8 : Nat) ≤ 8 ∧ 7 < 8 ∧ 8 * 8 ≤ 64 ∧ (1 : Nat) ≤ 8 ∧ 8 * 1 ≤ 8 := by decide

/-- An immediate of 0 or 1 is that number in both extensions. -/
theorem aluOperand_small (op : AluOp) : aluOperand op 0 = 0 ∧ aluOperand op 1 = 1 := by
  unfold aluOperand
  generalize Config.aluImmExt op = e
  cases e <;> decide

theorem witness_Divisions :
    let s := withRegs [(2, int64 (-7)), (3, int64 (-1))]
    ¬ SignedDivideFails (s.reg 2) (s.reg 3) ∧ s.reg 3 ≠ 0 ∧ aluOperand .udiv 1 ≠ 0 ∧
    ¬ SignedDivideFails (s.reg 2) (aluOperand .idiv 1) ∧ ¬ SignedDivideFails (s.reg 2) (aluOperand .rem 1) ∧
    ¬ SignedDivideFails (s.reg 2) (aluOperand .mod 1) := by
  simp only [(aluOperand_small _).2, SignedDivideFails]
  decide

theorem witness_ArithmeticFailure :
    let s := withRegs [(2, 0x8000000000000000), (3, int64 (-1))]
    SignedDivideFails (s.reg 2) (s.reg 3) ∧ SignedDivideFails (s.reg 2) (s.reg 4) ∧ s.reg 4 = 0 ∧
    SignedDivideFails (s.reg 2) (aluOperand .idiv 0) ∧ SignedDivideFails (s.reg 2) (aluOperand .rem 0) ∧
    SignedDivideFails (s.reg 2) (aluOperand .mod 0) ∧ aluOperand .udiv 0 = 0 := by
  simp only [(aluOperand_small _).1, SignedDivideFails]
  decide

/-- The value of a pattern from its decoded form. -/
theorem floatIs_of {p : FloatPrec} {a : BitVec p.width} {neg : Bool} {m : Nat} {e : Int} {q : ℚ}
    (h : floatValue p a = .fin neg m e) (hq : q = (if neg then -1 else 1) * (m : ℚ) * (2 : ℚ) ^ e) : FloatIs p a q := by
  simp [FloatIs, h, hq]

/-- Values of single patterns that the float witnesses use: 4, 2, 6, 8, 1, -1.5. -/
theorem single_values :
    FloatIs .single (0x40800000 : BitVec 32) 4 ∧ FloatIs .single (0x40000000 : BitVec 32) 2 ∧
    FloatIs .single (0x40C00000 : BitVec 32) 6 ∧ FloatIs .single (0x41000000 : BitVec 32) 8 ∧
    FloatIs .single (0x3F800000 : BitVec 32) 1 ∧ FloatIs .single (0xBFC00000 : BitVec 32) (-3 / 2) := by
  refine ⟨floatIs_of (neg := false) (m := 8388608) (e := -21) (by decide) (by norm_num),
    floatIs_of (neg := false) (m := 8388608) (e := -22) (by decide) (by norm_num),
    floatIs_of (neg := false) (m := 12582912) (e := -21) (by decide) (by norm_num),
    floatIs_of (neg := false) (m := 8388608) (e := -20) (by decide) (by norm_num),
    floatIs_of (neg := false) (m := 8388608) (e := -23) (by decide) (by norm_num),
    floatIs_of (neg := true) (m := 12582912) (e := -23) (by decide) (by norm_num)⟩

/-- The same patterns are neither subnormal nor NaN. -/
theorem single_plain :
    FloatPlain .single (0x40800000 : BitVec 32) ∧ FloatPlain .single (0x40000000 : BitVec 32) ∧
    FloatPlain .single (0x40C00000 : BitVec 32) ∧ FloatPlain .single (0x41000000 : BitVec 32) ∧
    FloatPlain .single (0x3F800000 : BitVec 32) ∧ FloatPlain .single (0xBFC00000 : BitVec 32) := by
  unfold FloatPlain
  decide

/-- 4 + 2 = 6, 4 - 2 = 2, 4 * 2 = 8, 4 / 4 = 1, the root of 4 is 2, and 2 + 1 * 4 = 6 with the product 4: one result for
each clause; -1.5 has no root. -/
theorem witness_FloatExactResults : (4 : ℚ) + 2 = 6 ∧ (4 : ℚ) - 2 = 2 ∧ (4 : ℚ) * 2 = 8 ∧ (4 : ℚ) / 4 = 1 ∧
    (2 : ℚ) * 2 = 4 ∧ (0 : ℚ) < 2 ∧ (2 : ℚ) + 1 * 4 = 6 ∧ (-3 / 2 : ℚ) < 0 ∧
    FloatIs .single (0x40800000 : BitVec 32) 4 ∧ FloatPlain .single (0x40800000 : BitVec 32) ∧
    ∃ m, FloatIs .single m (1 * 4) ∧ FloatPlain .single m :=
  ⟨by norm_num, by norm_num, by norm_num, by norm_num, by norm_num, by norm_num, by norm_num, by norm_num,
    single_values.1, single_plain.1, (0x40800000 : BitVec 32), by simpa using single_values.1, single_plain.1⟩

theorem witness_FloatCompareInstructions :
    FloatIs .single ((0x40800000 : Word).extractLsb' 0 32) 4 ∧ FloatPlain .single ((0x40800000 : Word).extractLsb' 0 32) ∧
    floatIsNan .single ((0x7FC00000 : Word).extractLsb' 0 32) = true := by
  refine ⟨?_, ?_, by decide⟩
  · rw [show (0x40800000 : Word).extractLsb' 0 32 = (0x40800000 : BitVec 32) by decide]
    exact single_values.1
  · rw [show (0x40800000 : Word).extractLsb' 0 32 = (0x40800000 : BitVec 32) by decide]
    exact single_plain.1

theorem witness_FloatCastRoundTrip :
    floatIsNan .single (0x40800000 : BitVec 32) = false ∧ FloatIs .single (0x40800000 : BitVec 32) 4 ∧
    FloatIs .half (0x4400 : BitVec 16) 4 :=
  ⟨by decide, single_values.1, floatIs_of (neg := false) (m := 1024) (e := -8) (by decide) (by norm_num)⟩

theorem witness_FloatNanPropagation :
    floatIsNan .half (0x7E01 : BitVec 16) = true ∧ floatIsNan .single (0xFFC00000 : BitVec 32) = true ∧
    floatIsNan .double (0x7FF0000000000001 : BitVec 64) = true := by decide

theorem witness_FloatCeiling :
    FloatIs .single (0xBFC00000 : BitVec 32) (-3 / 2) ∧ FloatPlain .single (0xBFC00000 : BitVec 32) :=
  ⟨single_values.2.2.2.2.2, single_plain.2.2.2.2.2⟩

/-- The register value 1 is the integer 1, and 0 is 0, in every integer type. -/
theorem castOperand_small (c : CastInt) : castOperand c 1 = 1 ∧ castOperand c 0 = 0 := by
  obtain ⟨s, w⟩ := c
  cases s <;> cases w <;> decide

theorem witness_FloatToInteger :
    FloatIs .single (0xBFC00000 : BitVec 32) (-3 / 2) ∧ FloatPlain .single (0xBFC00000 : BitVec 32) ∧
    floatExp .single (0x7F800000 : BitVec 32) = FloatPrec.single.expMax ∧
    castOperand (Config.castInt .single) 1 ≠ 0 ∧
    FloatIs .single (0x3F800000 : BitVec 32) (castOperand (Config.castInt .single) 1) ∧
    castOperand (Config.castInt .single) 0 = 0 := by
  refine ⟨single_values.2.2.2.2.2, single_plain.2.2.2.2.2, by decide, ?_, ?_, (castOperand_small _).2⟩
  · rw [(castOperand_small _).1]
    decide
  · rw [(castOperand_small _).1]
    exact_mod_cast single_values.2.2.2.2.1

theorem witness_FloatMinMax :
    FloatIs .single (0xBFC00000 : BitVec 32) (-3 / 2) ∧ FloatIs .single (0x40000000 : BitVec 32) 2 ∧
    FloatPlain .single (0xBFC00000 : BitVec 32) ∧ FloatPlain .single (0x40000000 : BitVec 32) ∧ (-3 / 2 : ℚ) < 2 :=
  ⟨single_values.2.2.2.2.2, single_values.2.1, single_plain.2.2.2.2.2, single_plain.2.1, by norm_num⟩

theorem witness_FloatSignOperations :
    floatIsNan .single (0xBFC00000 : BitVec 32) = false ∧ FloatIs .single (0xBFC00000 : BitVec 32) (-3 / 2) ∧
    FloatPlain .single (0xBFC00000 : BitVec 32) ∧ floatIsNan .half (0x0001 : BitVec 16) = false ∧
    floatIsSubnormal .half (0x0001 : BitVec 16) = true ∧ 30 + 1 < FloatPrec.single.width :=
  ⟨by decide, single_values.2.2.2.2.2, single_plain.2.2.2.2.2, by decide, by decide, by decide⟩

theorem witness_FloatTests :
    FloatIs .single ((0x40800000 : Word).extractLsb' 0 32) 4 ∧ FloatPlain .single ((0x40800000 : Word).extractLsb' 0 32) ∧
    floatIsNan .single ((0x7FC00000 : Word).extractLsb' 0 32) = true ∧
    FloatIs .single ((0x80000000 : Word).extractLsb' 0 32) 0 ∧ FloatIs .half ((0x0001 : Word).extractLsb' 0 16) (2 ^ (-24 : ℤ)) ∧
    floatIsSubnormal .half ((0x0001 : Word).extractLsb' 0 16) = true ∧
    floatExp .single ((0x7F800000 : Word).extractLsb' 0 32) = FloatPrec.single.expMax :=
  ⟨witness_FloatCompareInstructions.1, witness_FloatCompareInstructions.2.1, by decide,
    floatIs_of (neg := true) (m := 0) (e := -149) (by decide) (by norm_num),
    floatIs_of (neg := false) (m := 1) (e := -24) (by decide) (by norm_num), by decide, by decide⟩

/-- The default parameters, the same with FCNV_SPLIT the other way round, and the same with other operand roles, are lawful
and hold every operand. -/
theorem witness_DecodeOfEncodeUnderAnyAssignment :
    (defaultParams.Lawful ∧ defaultParams.CoversInstr) ∧
    ((withSplit swappedSplit).Lawful ∧ (withSplit swappedSplit).CoversInstr) ∧
    (otherRoles.Lawful ∧ otherRoles.CoversInstr) :=
  ⟨⟨defaultParams_lawful, defaultParams_coversInstr⟩,
    ⟨withSplit_lawful swappedSplit_lawful, defaultParams_coversInstr⟩,
    ⟨otherRoles_lawful, fun h => (otherRoles_fits h).2.2⟩⟩

/-- A variant with every bit of its used fields set, a word that is canonical and one that is not. -/
theorem witness_VariantRoundTripsUnderAnyAssignment :
    otherRoles.Lawful ∧
    (otherRoles.used (.single (.aluReg .add))).within (otherRoles.used (.single (.aluReg .add))) ∧
    decodeVariant otherRoles 0x1FFFFF20 =
      .ok { head := .single (.aluReg .add), operands := { rde := 1, rs1 := 0xF, rs2 := 0xF, imm := 0xFFF } } ∧
    isCanonicalWith otherRoles 0x1FFFFF20 = true ∧
    decodeVariant otherRoles 0xA7FFFF0B = .ok { head := .single .push, operands := { rde := 0xA } } ∧
    isCanonicalWith otherRoles 0xA7FFFF0B = false :=
  ⟨otherRoles_lawful, Fields.mask_self _, by decide⟩

/-- The opcodes at the ends of each range of the statement, and a word for each outcome of decoding. -/
theorem witness_DecoderPortOutputs :
    (opcodeOf 0x00000011).toNat = 0x11 ∧ (opcodeOf 0x0000001B).toNat = 0x1B ∧ (opcodeOf 0x00000040).toNat = 0x40 ∧
    (opcodeOf 0x0000004F).toNat = 0x4F ∧ (opcodeOf 0x00000020).toNat = 0x20 ∧ (opcodeOf 0x0000003F).toNat = 0x3F ∧
    (opcodeOf 0x00000002).toNat = 0x02 ∧ (opcodeOf 0x00000009).toNat = 0x09 ∧ (opcodeOf 0x0000000B).toNat = 0x0B ∧
    (opcodeOf 0x0000001E).toNat = 0x1E ∧ (opcodeOf 0x00000001).toNat = 0x01 ∧ (opcodeOf 0x0000000A).toNat = 0x0A ∧
    (opcodeOf 0x0000000E).toNat = 0x0E ∧ decode 0x00000000 = .none .badOpcode ∧ decode 0x7000000A = .none .badSubcode ∧
    decode 0x123ABC20 = .some (.addr 1 2 3) := by decide

end Sys2Proof.Tests
end

/-! PROOF. Proofs/WordBytes: the little-endian byte view of an instruction word (R50). The numeric value of the word of
four bytes comes first; that the byte view and the word of bytes are inverse is then division by powers of 2 ^ 8. -/
namespace Sys2Proof

/-- Or-ing a byte in above the bits already taken adds it at its place. -/
theorem toNat_or_byte_shiftLeft (lo : InstrWord) (b : Byte) (k : Nat) (hk : k ≤ 24) (hlo : lo.toNat < 2 ^ k) :
    (lo ||| b.setWidth 32 <<< k).toNat = lo.toNat + b.toNat * 2 ^ k := by
  have hb : b.toNat <<< k < 2 ^ 32 := calc
    b.toNat <<< k = b.toNat * 2 ^ k := Nat.shiftLeft_eq ..
    _ < 2 ^ 8 * 2 ^ k := Nat.mul_lt_mul_of_pos_right b.isLt (Nat.two_pow_pos k)
    _ = 2 ^ (8 + k) := (pow_add ..).symm
    _ ≤ 2 ^ 32 := Nat.pow_le_pow_right (by decide) (by omega)
  have hw : (b.setWidth 32).toNat = b.toNat := BitVec.toNat_setWidth_of_le (by decide)
  rw [BitVec.toNat_or, BitVec.toNat_shiftLeft, hw, Nat.mod_eq_of_lt hb, Nat.or_comm,
    ← Nat.shiftLeft_add_eq_or_of_lt hlo, Nat.shiftLeft_eq, Nat.add_comm]

/-- The value of a word in its four bytes: the first byte is the least significant (R50). -/
theorem wordOfBytes_toNat (b0 b1 b2 b3 : Byte) :
    (wordOfBytes b0 b1 b2 b3).toNat =
      b0.toNat + b1.toNat * 2 ^ 8 + b2.toNat * 2 ^ 16 + b3.toNat * 2 ^ 24 := by
  have h0 : (b0.setWidth 32).toNat = b0.toNat := BitVec.toNat_setWidth_of_le (by decide)
  have h1 := toNat_or_byte_shiftLeft (b0.setWidth 32) b1 8 (by decide) (by omega)
  have h2 := toNat_or_byte_shiftLeft _ b2 16 (by decide) (by rw [h1]; omega)
  have h3 := toNat_or_byte_shiftLeft _ b3 24 (by decide) (by rw [h2, h1]; omega)
  rw [wordOfBytes, h3, h2, h1, h0]

/-- The value of byte k of a word: the word's k-th digit in base 2 ^ 8 (R50, R52). -/
theorem byteOfWord_toNat (k : Nat) (w : InstrWord) : (byteOfWord k w).toNat = w.toNat / 2 ^ (8 * k) % 2 ^ 8 := by
  rw [byteOfWord, BitVec.extractLsb'_toNat, Nat.shiftRight_eq_div_pow]

/-- The bytes of the word of four bytes are those bytes (R50). -/
theorem byteOfWord_wordOfBytes (b : Fin 4 → Byte) (k : Fin 4) :
    byteOfWord k (wordOfBytes (b 0) (b 1) (b 2) (b 3)) = b k := by
  apply BitVec.eq_of_toNat_eq
  rw [byteOfWord_toNat, wordOfBytes_toNat]
  fin_cases k <;> dsimp <;> omega

/-- A word is the word of its bytes (R50). -/
theorem wordOfBytes_byteOfWord (w : InstrWord) :
    wordOfBytes (byteOfWord 0 w) (byteOfWord 1 w) (byteOfWord 2 w) (byteOfWord 3 w) = w := by
  apply BitVec.eq_of_toNat_eq
  simp only [wordOfBytes_toNat, byteOfWord_toNat]
  omega

/-- The opcode of a word is its first byte (R50, R70). -/
theorem opcodeOf_eq_byteOfWord (w : InstrWord) : opcodeOf w = byteOfWord 0 w := rfl

/-- Settles O10: each byte of the word of four bytes is read off its value, and the opcode is the first of them. -/
theorem wordBytes : Obligations.WordBytes := by
  refine ⟨fun b0 b1 b2 b3 => ?_, wordOfBytes_byteOfWord⟩
  have bytes := byteOfWord_wordOfBytes ![b0, b1, b2, b3]
  exact ⟨wordOfBytes_toNat b0 b1 b2 b3, bytes 0, bytes 1, bytes 2, bytes 3,
    (opcodeOf_eq_byteOfWord _).trans (bytes 0), rfl⟩

end Sys2Proof

/-! PROOF. Proofs/SignExtension: sign extension from every width of 1 to 64 bits (R80). Each form follows from the bits of
`sext`; the two's-complement reading is that of the low bits taken as a value of their own width. -/
namespace Sys2Proof

/-- Bit i of the mask of the low n bits. -/
theorem lowMask_getLsbD (n i : Nat) (hi : i < 64) :
    (BitVec.ofNat 64 (2 ^ n - 1)).getLsbD i = decide (i < n) := by
  rw [BitVec.getLsbD_ofNat, Nat.testBit_two_pow_sub_one]
  simp [hi]

/-- Sign extension with bit n - 1 clear: the low n bits (R80). -/
theorem sext_of_clear {n : Nat} (h1 : 1 ≤ n) (h2 : n ≤ 64) {v : Word} (hv : v.getLsbD (n - 1) = false) :
    sext n v = v &&& BitVec.ofNat 64 (2 ^ n - 1) := by
  apply BitVec.eq_of_getLsbD_eq
  intro i hi
  rw [sext_getLsbD n h1 h2 v i hi, BitVec.getLsbD_and, lowMask_getLsbD n i hi, hv]
  by_cases hlow : i < n <;> simp [hlow]

/-- Sign extension with bit n - 1 set: the low n bits, and ones above (R80). -/
theorem sext_of_set {n : Nat} (h1 : 1 ≤ n) (h2 : n ≤ 64) {v : Word} (hv : v.getLsbD (n - 1) = true) :
    sext n v = (v &&& BitVec.ofNat 64 (2 ^ n - 1)) ||| ~~~(BitVec.ofNat 64 (2 ^ n - 1)) := by
  apply BitVec.eq_of_getLsbD_eq
  intro i hi
  rw [sext_getLsbD n h1 h2 v i hi, BitVec.getLsbD_or, BitVec.getLsbD_and, BitVec.getLsbD_not,
    lowMask_getLsbD n i hi, hv]
  by_cases hlow : i < n <;> simp [hlow, hi]

/-- Sign extension is that of the low n bits as a value of n bits (R80). -/
theorem sext_eq_signExtend {n : Nat} (h1 : 1 ≤ n) (h2 : n ≤ 64) (v : Word) :
    sext n v = (v.setWidth n).signExtend 64 := by
  rw [← simm_eq_signExtend h1 h2, simm]
  apply BitVec.eq_of_getLsbD_eq
  intro i hi
  rw [sext_getLsbD n h1 h2 _ i hi, sext_getLsbD n h1 h2 _ i hi]
  have hsign : n - 1 < n := by omega
  have hsign64 : n - 1 < 64 := by omega
  by_cases hlow : i < n <;> simp [hlow, hi, hsign, hsign64]

/-- The low n bits are the same under their mask. -/
theorem setWidth_and_lowMask {n : Nat} (h2 : n ≤ 64) (v : Word) :
    (v &&& BitVec.ofNat 64 (2 ^ n - 1)).setWidth n = v.setWidth n := by
  apply BitVec.eq_of_getLsbD_eq
  intro i hi
  rw [BitVec.getLsbD_setWidth, BitVec.getLsbD_setWidth, BitVec.getLsbD_and, lowMask_getLsbD n i (by omega)]
  simp [hi]

/-- Sign extension ignores the bits above the low n (R80). -/
theorem sext_and_lowMask {n : Nat} (h1 : 1 ≤ n) (h2 : n ≤ 64) (v : Word) :
    sext n v = sext n (v &&& BitVec.ofNat 64 (2 ^ n - 1)) := by
  rw [sext_eq_signExtend h1 h2, sext_eq_signExtend h1 h2, setWidth_and_lowMask h2]

/-- The two's-complement value of a sign-extended word is that of its low n bits (R80). -/
theorem sext_toInt {n : Nat} (h1 : 1 ≤ n) (h2 : n ≤ 64) (v : Word) :
    (sext n v).toInt = (v.toNat : Int).bmod (2 ^ n) := by
  rw [sext_eq_signExtend h1 h2, BitVec.toInt_signExtend_of_le h2, BitVec.toInt_setWidth]

/-- Sign extension from all 64 bits changes nothing (R80). -/
theorem sext_full (v : Word) : sext 64 v = v := by
  rw [sext_eq_signExtend (by decide) le_rfl, BitVec.setWidth_eq, BitVec.signExtend_eq]

/-- Settles O9: the shift form is the definition; the rest is read off the bits of `sext`. -/
theorem signExtension : Obligations.SignExtension :=
  ⟨fun _ v h1 h2 => ⟨rfl, sext_of_clear h1 h2, sext_of_set h1 h2, sext_and_lowMask h1 h2 v, sext_toInt h1 h2 v⟩,
    sext_full⟩

end Sys2Proof

/-! PROOF. Proofs/SliceIsolation: a legal slice lies within its container, so a write changes the bits of its mask and no
other, and they read back (R73 to R75, R79). -/
namespace Sys2Proof

/-- W(S) divides W(C) when the kind is no wider than the container: both are powers of 2 (R73). -/
theorem SliceKind.width_dvd {S : SliceKind} {C : Container} (h : S.width ≤ C.width) : S.width ∣ C.width := by
  cases S <;> cases C <;> revert h <;> decide

/-- A legal slice lies within its container (R73). -/
theorem sliceLegal_le {S : SliceKind} {C : Container} {i : Nat} (h : sliceLegal S C i = true) :
    i * S.width + S.width ≤ C.width := by
  simp only [sliceLegal, Bool.and_eq_true, decide_eq_true_eq] at h
  obtain ⟨hkind, hindex⟩ := h
  obtain ⟨count, hcount⟩ := SliceKind.width_dvd hkind
  rw [hcount, Nat.mul_comm S.width] at hindex ⊢
  have hi : i + 1 ≤ count := Nat.lt_of_mul_lt_mul_right hindex
  calc i * S.width + S.width = (i + 1) * S.width := (Nat.succ_mul ..).symm
    _ ≤ count * S.width := Nat.mul_le_mul_right _ hi

/-- The field a write covers reads back as the value written (R75, R79). -/
theorem extractLsb'_overwrite {n : Nat} (lo w : Nat) (c : BitVec n) (v : BitVec w) (h : lo + w ≤ n) :
    (overwrite lo w c v).extractLsb' lo w = v := by
  apply BitVec.eq_of_getLsbD_eq
  intro i hi
  rw [BitVec.getLsbD_extractLsb', overwrite_getLsbD _ _ _ _ _ (by omega)]
  simp [hi]

/-- A write changes no bit outside the field's mask (R75, R79). -/
theorem overwrite_and_not_fieldMask {n : Nat} (lo w : Nat) (c : BitVec n) (v : BitVec w) :
    overwrite lo w c v &&& ~~~(fieldMask n lo w) = c &&& ~~~(fieldMask n lo w) := by
  apply BitVec.eq_of_getLsbD_eq
  intro i hi
  simp only [BitVec.getLsbD_and, BitVec.getLsbD_not, fieldMask_getLsbD, overwrite_getLsbD _ _ _ _ _ hi]
  by_cases hfield : lo ≤ i ∧ i < lo + w
  · simp [hi, hfield]
  · rw [if_neg hfield]

/-- A read at a legal index is the field at that index (R74). -/
theorem sliceRead_of_legal {S : SliceKind} {C : Container} {i : Nat} (h : sliceLegal S C i = true)
    (c : BitVec C.width) : sliceRead S C i c = some (c.extractLsb' (i * S.width) S.width) := if_pos h

/-- A write at a legal index overwrites the field at that index (R75). -/
theorem sliceWrite_of_legal {S : SliceKind} {C : Container} {i : Nat} (h : sliceLegal S C i = true)
    (c : BitVec C.width) (v : BitVec S.width) :
    sliceWrite S C i c v = some (overwrite (i * S.width) S.width c v) := if_pos h

/-- Settles O8: a legal slice lies within its container, so the overwritten field reads back. -/
theorem sliceIsolation : Obligations.SliceIsolation := by
  intro S C i c v hlegal
  refine ⟨_, sliceWrite_of_legal hlegal c v, ?_, overwrite_and_not_fieldMask _ _ c v⟩
  rw [sliceRead_of_legal hlegal, extractLsb'_overwrite _ _ c v (sliceLegal_le hlegal)]

end Sys2Proof

/-! PROOF. Proofs/FormatRoundTrips: the round trips of the five formats (R106). A field of a word in its place is the word
under the field's mask; a value in its place reads back, and reads as zero everywhere else. -/
namespace Sys2Proof

/-- A field of a word put back in its place: the word's bits under the field's mask. -/
theorem extractLsb'_shiftLeft (w : InstrWord) (lo n : Nat) :
    (w.extractLsb' lo n).setWidth 32 <<< lo = w &&& fieldMask 32 lo n := by
  apply BitVec.eq_of_getLsbD_eq
  intro i hi
  rw [BitVec.getLsbD_shiftLeft, BitVec.getLsbD_setWidth, BitVec.getLsbD_extractLsb', BitVec.getLsbD_and,
    fieldMask_getLsbD]
  by_cases hlo : lo ≤ i
  · have hpos : lo + (i - lo) = i := by omega
    have hlt : i - lo < 32 := by omega
    have hn : i - lo < n ↔ i < lo + n := by omega
    simp [hi, hlo, hpos, hlt, hn, Bool.and_comm]
  · simp [hlo]

/-- The opcode, whose place is bit 0: the word's bits under the mask of the low byte. -/
theorem opcodeOf_setWidth (w : InstrWord) : (opcodeOf w).setWidth 32 = w &&& fieldMask 32 0 8 := by
  rw [← extractLsb'_shiftLeft, BitVec.shiftLeft_zero, opcodeOf]

/-- A value put at a place that holds it reads back from there. -/
@[simp] theorem extractLsb'_field_same {n : Nat} (v : BitVec n) (lo : Nat) (h : lo + n ≤ 32) :
    (v.setWidth 32 <<< lo).extractLsb' lo n = v := by
  apply BitVec.eq_of_getLsbD_eq
  intro i hi
  have hlt : lo + i < 32 := by omega
  simp [hi, hlt]

/-- A value put at another place leaves zeros. -/
@[simp] theorem extractLsb'_field_disjoint {m : Nat} (v : BitVec m) (k lo n : Nat) (h : lo + n ≤ k ∨ k + m ≤ lo) :
    (v.setWidth 32 <<< k).extractLsb' lo n = 0#n := by
  apply BitVec.eq_of_getLsbD_eq
  intro i hi
  rw [BitVec.getLsbD_extractLsb', BitVec.getLsbD_shiftLeft, BitVec.getLsbD_setWidth, BitVec.getLsbD_zero]
  by_cases hk : lo + i < k
  · simp [hk]
  · have hm : v.getLsbD (lo + i - k) = false := BitVec.getLsbD_of_ge _ _ (by omega)
    simp [hm]

/-- The opcode of a packed word leaves zeros above the low byte. -/
@[simp] theorem extractLsb'_opcode_above (op : BitVec 8) (lo n : Nat) (h : 8 ≤ lo) :
    (op.setWidth 32).extractLsb' lo n = 0#n := by
  rw [← BitVec.shiftLeft_zero (op.setWidth 32)]
  exact extractLsb'_field_disjoint op 0 lo n (by omega)

/-! ### Unpack, then pack -/

/-- Packing the fields of a word with its opcode gives the word: the masks of the fields and of the low byte together
are the whole word (R106). -/
theorem packFields_readFields (fmt : Format) (w : InstrWord) :
    packFields fmt (readFields fmt w) (opcodeOf w) = w := by
  cases fmt <;>
    simp (disch := decide) only [packFields, readFields, packE, packR, packM, packF, packB, unpackE, unpackR, unpackM,
      unpackF, unpackB, BitVec.setWidth_setWidth_of_le, BitVec.setWidth_eq, opcodeOf_setWidth, extractLsb'_shiftLeft,
      ← BitVec.and_or_distrib_left] <;>
    exact BitVec.and_allOnes

theorem packE_unpackE (w : InstrWord) : packE (unpackE w) (opcodeOf w) = w := by
  simpa [packFields, readFields] using packFields_readFields .e w

theorem packR_unpackR (w : InstrWord) : packR (unpackR w) (opcodeOf w) = w := by
  simpa [packFields, readFields] using packFields_readFields .r w

theorem packM_unpackM (w : InstrWord) : packM (unpackM w) (opcodeOf w) = w := by
  simpa [packFields, readFields] using packFields_readFields .m w

theorem packF_unpackF (w : InstrWord) : packF (unpackF w) (opcodeOf w) = w := by
  simpa [packFields, readFields] using packFields_readFields .f w

theorem packB_unpackB (w : InstrWord) : packB (unpackB w) (opcodeOf w) = w := by
  simpa [packFields, readFields] using packFields_readFields .b w

/-! ### Pack, then unpack -/

theorem unpackE_packE (r : RecE) (op : BitVec 8) : unpackE (packE r op) = r := by
  simp [unpackE, packE, BitVec.extractLsb'_or]

theorem unpackR_packR (r : RecR) (op : BitVec 8) : unpackR (packR r op) = r := by
  simp [unpackR, packR, BitVec.extractLsb'_or]

theorem unpackM_packM (r : RecM) (op : BitVec 8) : unpackM (packM r op) = r := by
  simp [unpackM, packM, BitVec.extractLsb'_or]

theorem unpackF_packF (r : RecF) (op : BitVec 8) : unpackF (packF r op) = r := by
  simp [unpackF, packF, BitVec.extractLsb'_or]

theorem unpackB_packB (r : RecB) (op : BitVec 8) : unpackB (packB r op) = r := by
  simp [unpackB, packB, BitVec.extractLsb'_or]

/-! ### The low byte of a packed record -/

theorem opcodeOf_packE (r : RecE) (op : BitVec 8) : opcodeOf (packE r op) = op := by
  simpa [packFields] using
    opcodeOf_packFields .e { rde := r.rde, rs1 := r.rs1, rs2 := r.rs2, func := r.func, imm := r.imm.setWidth 20 } op

theorem opcodeOf_packR (r : RecR) (op : BitVec 8) : opcodeOf (packR r op) = op := by
  simpa [packFields] using
    opcodeOf_packFields .r { rde := r.rde, rs1 := r.rs1, rs2 := r.rs2, imm := r.imm.setWidth 20 } op

theorem opcodeOf_packM (r : RecM) (op : BitVec 8) : opcodeOf (packM r op) = op := by
  simpa [packFields] using
    opcodeOf_packFields .m { rde := r.rde, rs1 := r.rs1, imm := r.imm.setWidth 20 } op

theorem opcodeOf_packF (r : RecF) (op : BitVec 8) : opcodeOf (packF r op) = op := by
  simpa [packFields] using
    opcodeOf_packFields .f { rde := r.rde, func := r.func, imm := r.imm.setWidth 20 } op

theorem opcodeOf_packB (r : RecB) (op : BitVec 8) : opcodeOf (packB r op) = op := by
  simpa [packFields] using
    opcodeOf_packFields .b { func := r.func, imm := r.imm } op

/-- Settles O3: a word is the union of its fields in their places, and a field in its place reads back unmixed. -/
theorem formatRoundTrips : Obligations.FormatRoundTrips :=
  ⟨packE_unpackE, fun r op => ⟨unpackE_packE r op, opcodeOf_packE r op⟩,
    packR_unpackR, fun r op => ⟨unpackR_packR r op, opcodeOf_packR r op⟩,
    packM_unpackM, fun r op => ⟨unpackM_packM r op, opcodeOf_packM r op⟩,
    packF_unpackF, fun r op => ⟨unpackF_packF r op, opcodeOf_packF r op⟩,
    packB_unpackB, fun r op => ⟨unpackB_packB r op, opcodeOf_packB r op⟩⟩

end Sys2Proof

/-! PROOF. Proofs/InterruptOperand: the operand of `int` and the check of its high byte (R118). Which words fail to decode,
and why, comes first; it holds under any parameters of the block. -/
namespace Sys2Proof

/-! ### What makes a word fail to decode -/

/-- Decoding fails exactly where no variant is decoded. -/
theorem decodeWith_eq_none_iff {P : BlockParams} {w : InstrWord} {e : FailReason} :
    decodeWith P w = .none e ↔ decodeVariant P w = .error e := by
  unfold decodeWith
  cases decodeVariant P w <;> simp

/-- A word has no variant because its opcode selects nothing, or because its sub-code has no head (R502). -/
theorem decodeVariant_eq_error_iff {P : BlockParams} {w : InstrWord} {e : FailReason} :
    decodeVariant P w = .error e ↔
      (P.kindOf (opcodeOf w) = none ∧ e = .badOpcode) ∨
      ∃ k, P.kindOf (opcodeOf w) = some k ∧ readHead P k (readFields (P.formatOf k) w) = .error e := by
  unfold decodeVariant
  cases P.kindOf (opcodeOf w) with
  | none => simp [eq_comm]
  | some k => cases hhead : readHead P k (readFields (P.formatOf k) w) <;> simp [hhead]

/-- The instruction of a word whose opcode and sub-code have a head: its used fields as operands (R110). -/
theorem decodeWith_of_readHead {P : BlockParams} {w : InstrWord} {k : OpKind} {h : Head}
    (hkind : P.kindOf (opcodeOf w) = some k) (hhead : readHead P k (readFields (P.formatOf k) w) = .ok h) :
    decodeWith P w =
      .some (h.toInstr (((readFields (P.formatOf k) w).mask (P.used h)).select (P.roles h))) := by
  simp only [decodeWith, decodeVariant, hkind, hhead]

/-- Only system control with the sub-code of `int` fails for the high byte (R118). -/
theorem kind_of_readHead_badIntHighByte {P : BlockParams} {k : OpKind} {r : Fields}
    (h : readHead P k r = .error .badIntHighByte) : k = .sysctl ∧ P.sysctl.ofCode? r.func = some .int := by
  cases k with
  | sysctl =>
    refine ⟨rfl, ?_⟩
    cases hop : P.sysctl.ofCode? r.func with
    | none => simp [readHead, hop] at h
    | some op =>
      cases op with
      | int => rfl
      | iret | ires | usr => simp [readHead, hop] at h
  | single m => simp [readHead] at h
  | branch => cases hc : P.cond.ofCode? r.func <;> simp [readHead, hc] at h
  | loadImm => cases ht : P.liType.ofCode? r.func <;> simp [readHead, ht] at h
  | cmpi => cases ho : P.order.ofCode? r.func <;> simp [readHead, ho] at h
  | float op => cases hp : P.prec.ofCode? r.func <;> simp [readHead, hp] at h
  | fcnv => cases hp : P.fcnv.ofCode? r.func <;> simp [readHead, hp] at h

/-- A word that fails for its high byte has the trap's opcode and func 0 (R118). -/
theorem trap_of_decode_badIntHighByte {w : InstrWord} (h : decode w = .none .badIntHighByte) :
    opcodeOf w = 0x01 ∧ w.extractLsb' 24 4 = 0 := by
  obtain ⟨_, hreason⟩ | ⟨k, hkind, hhead⟩ := decodeVariant_eq_error_iff.mp (decodeWith_eq_none_iff.mp h)
  · contradiction
  · obtain ⟨rfl, hsub⟩ := kind_of_readHead_badIntHighByte hhead
    exact ⟨(defaultParams_lawful.opcode_kindOf _ _ hkind).symm, (defaultParams_lawful.sysctl.2 _ _ hsub).symm⟩

/-! ### The trap -/

/-- A part of a part of a bit vector is a part of it. -/
theorem extractLsb'_extractLsb' {N : Nat} (x : BitVec N) {start len lo n : Nat} (h : lo + n ≤ len) :
    (x.extractLsb' start len).extractLsb' lo n = x.extractLsb' (start + lo) n := by
  apply BitVec.eq_of_getLsbD_eq
  intro i hi
  have hlen : lo + i < len := by omega
  simp [hi, hlen, Nat.add_assoc]

/-- The immediate of format F as the trap reads it (R101). -/
theorem imm16_readFields_f (w : InstrWord) : (readFields .f w).imm16 = w.extractLsb' 8 16 := by
  rw [Fields.imm16, readFields, unpackF, BitVec.setWidth_setWidth_of_le _ (by decide), BitVec.setWidth_eq]

/-- The low byte of that immediate (R101). -/
theorem imm8_readFields_f (w : InstrWord) : (readFields .f w).imm8 = w.extractLsb' 8 8 := by
  rw [Fields.imm8, readFields, unpackF, BitVec.setWidth_setWidth_of_le _ (by decide),
    BitVec.setWidth_extractLsb'_of_le (by decide)]

/-- The interrupt operand: word[15:8], absent unless word[23:16] is zero (R34, R118). -/
theorem intIdOfField_imm16_readFields_f (w : InstrWord) :
    intIdOfField (readFields .f w).imm16 =
      if w.extractLsb' 16 8 = 0 then some (w.extractLsb' 8 8) else none := by
  rw [imm16_readFields_f, intIdOfField, extractLsb'_extractLsb' w (by decide),
    extractLsb'_extractLsb' w (by decide)]

/-- The used fields of `int` hold the interrupt operand (R201). -/
theorem toInstr_int_mask (r : Fields) :
    (Head.sysctl .int).toInstr (r.mask (Head.defaultUsed (.sysctl .int))) = .int r.imm8 := by
  simp only [Head.toInstr, Head.defaultUsed, Fields.mask, Instr.int.injEq]
  rw [Fields.imm8, BitVec.setWidth_and]
  exact BitVec.and_allOnes

/-- The decoding of the words of the trap (R118). -/
theorem decode_trap {w : InstrWord} (hop : opcodeOf w = 0x01) (hfunc : w.extractLsb' 24 4 = 0) :
    decode w =
      if w.extractLsb' 16 8 = 0 then .some (.int (w.extractLsb' 8 8)) else .none .badIntHighByte := by
  have hkind : defaultParams.kindOf (opcodeOf w) = some .sysctl := by rw [hop]; rfl
  have hsub : defaultParams.sysctl.ofCode? (readFields .f w).func = some .int :=
    congrArg SysctlOp.ofCode? hfunc
  have hfield := intIdOfField_imm16_readFields_f w
  by_cases hhigh : w.extractLsb' 16 8 = 0
  · rw [if_pos hhigh] at hfield ⊢
    have hhead : readHead defaultParams .sysctl (readFields .f w) = .ok (.sysctl .int) := by
      simp only [readHead, hsub, hfield]
    rw [decode, decodeWith_of_readHead hkind hhead, ← imm8_readFields_f]
    exact congrArg _ (toInstr_int_mask _)
  · rw [if_neg hhigh] at hfield ⊢
    have hhead : readHead defaultParams .sysctl (readFields .f w) = .error .badIntHighByte := by
      simp only [readHead, hsub, hfield]
    exact decodeWith_eq_none_iff.mpr (decodeVariant_eq_error_iff.mpr (.inr ⟨.sysctl, hkind, hhead⟩))

/-- Settles O7: only the head of the trap reads the high byte, and it reads word[23:16]. -/
theorem interruptOperand : Obligations.InterruptOperand :=
  ⟨fun _ => decode_trap, fun _ => trap_of_decode_badIntHighByte⟩

end Sys2Proof

/-! PROOF. Proofs/ArithHelpers: addition and the divisions of the arithmetic helper layer (R432, R437 to R439). A
quotient or remainder fits in the word it is reduced to, so the reduction keeps its value; for a signed remainder that is
because its magnitude is below the divisor's. -/
namespace Sys2Proof.Machine

/-! ### Addition -/

/-- The carry as a number (R432). -/
theorem carryNat_eq_toNat (c : Bool) : carryNat c = c.toNat := by
  cases c <;> rfl

/-- Outside the signed range: below its least value, or at 2^63 and above (R432). -/
theorem outsideSigned64_iff (v : Int) : outsideSigned64 v = true ↔ v < -2 ^ 63 ∨ 2 ^ 63 ≤ v := by
  rw [outsideSigned64, Bool.or_eq_true, decide_eq_true_eq, decide_eq_true_eq, Int.sub_one_lt_iff]

/-- The wrapped signed sum is the signed value of the word's sum (R432). -/
theorem wrapSigned64_toInt_add (a b : Word) : wrapSigned64 (a.toInt + b.toInt) = (a + b).toInt :=
  (BitVec.toInt_add a b).symm

/-- The carry step overflows the signed range at its upper end only: a carry is never negative (R432). -/
theorem outsideSigned64_add_carry (r : Word) (c : Bool) :
    outsideSigned64 (r.toInt + c.toNat) = true ↔ 2 ^ 63 ≤ r.toInt + c.toNat := by
  rw [outsideSigned64_iff]
  have hlow : -2 ^ 63 ≤ r.toInt := r.le_toInt
  omega

/-- The result of `add` (R432). -/
theorem helperAdd_result_toNat (a b : Word) (c : Bool) :
    (helperAdd a b c).result.toNat = (a.toNat + b.toNat + c.toNat) % 2 ^ 64 := by
  simp only [helperAdd, carryNat_eq_toNat, BitVec.toNat_add, BitVec.toNat_ofNat, Nat.add_mod_mod, Nat.mod_add_mod]

/-- The unsigned flag of `add`: its two steps on numbers (R432). -/
theorem helperAdd_unsignedOverflow_iff (a b : Word) (c : Bool) :
    (helperAdd a b c).unsignedOverflow = true ↔
      2 ^ 64 ≤ a.toNat + b.toNat ∨ 2 ^ 64 ≤ (a.toNat + b.toNat) % 2 ^ 64 + c.toNat := by
  simp only [helperAdd, carryNat_eq_toNat, BitVec.toNat_add, Bool.or_eq_true, decide_eq_true_eq]

/-- The signed flag of `add`: its two steps on integers (R432). -/
theorem helperAdd_signedOverflow_iff (a b : Word) (c : Bool) :
    (helperAdd a b c).signedOverflow = true ↔
      a.toInt + b.toInt < -2 ^ 63 ∨ 2 ^ 63 ≤ a.toInt + b.toInt ∨ 2 ^ 63 ≤ (a + b).toInt + c.toNat := by
  simp only [helperAdd, carryNat_eq_toNat, wrapSigned64_toInt_add, Bool.or_eq_true]
  rw [outsideSigned64_add_carry, outsideSigned64_iff, or_assoc]

/-- Settles O12: the carry as a number, and the wrapped sum as the word's sum. -/
theorem addHelper : Obligations.AddHelper := fun a b c =>
  ⟨helperAdd_result_toNat a b c, helperAdd_unsignedOverflow_iff a b c, helperAdd_signedOverflow_iff a b c⟩

/-! ### Unsigned division -/

/-- `udiv` answers absent exactly for a zero divisor (R437). -/
theorem helperUdiv_eq_none_iff (a b : Word) : helperUdiv a b = none ↔ b = 0 := by
  simp only [helperUdiv, ite_eq_left_iff, reduceCtorEq, imp_false, not_not]

/-- A quotient of `udiv` is no larger than the dividend, so it is a word (R437). -/
theorem toNat_of_helperUdiv {a b q : Word} (h : helperUdiv a b = some q) : q.toNat = a.toNat / b.toNat := by
  obtain ⟨-, hq⟩ := Option.ite_none_left_eq_some.mp h
  have hlt : a.toNat / b.toNat < 2 ^ 64 := Nat.div_lt_of_lt a.isLt
  rw [← Option.some.inj hq, BitVec.toNat_ofNat, Nat.mod_eq_of_lt hlt]

/-- Settles O14: a quotient of words is itself a word. -/
theorem unsignedDivideHelper : Obligations.UnsignedDivideHelper := fun a b =>
  ⟨helperUdiv_eq_none_iff a b, fun _ => toNat_of_helperUdiv⟩

/-! ### The signed remainders -/

/-- The check of the signed divide helpers: a zero divisor, or the least value divided by -1 (R436). -/
theorem signedDivFails_iff (a b : Word) : signedDivFails a b = true ↔ SignedDivideFails a b := by
  simp only [signedDivFails, SignedDivideFails, Bool.or_eq_true, Bool.and_eq_true, beq_iff_eq]

/-- Where the signed divide does not fail, the divisor's value is not zero (R436). -/
theorem toInt_ne_zero_of_not_signedDivideFails {a b : Word} (h : ¬ SignedDivideFails a b) : b.toInt ≠ 0 :=
  fun hzero => h (.inl (BitVec.toInt_inj.mp hzero))

/-- `rem` answers absent exactly where the signed divide fails (R438). -/
theorem helperRem_eq_none_iff (a b : Word) : helperRem a b = none ↔ SignedDivideFails a b := by
  simp only [helperRem, ← signedDivFails_iff, ite_eq_left_iff, reduceCtorEq, imp_false, not_not]

/-- `mod` answers absent exactly where the signed divide fails (R439). -/
theorem helperMod_eq_none_iff (a b : Word) : helperMod a b = none ↔ SignedDivideFails a b := by
  simp only [helperMod, ← signedDivFails_iff, ite_eq_left_iff, reduceCtorEq, imp_false, not_not]

/-- An integer of magnitude below a word's signed value is in the signed range, so reducing it to a word keeps it. -/
theorem toInt_ofInt_of_natAbs_lt {v : Int} {b : Word} (h : v.natAbs < b.toInt.natAbs) :
    (BitVec.ofInt 64 v).toInt = v := by
  have hlow : -2 ^ 63 ≤ b.toInt := b.le_toInt
  have hhigh : b.toInt < 2 ^ 63 := b.toInt_lt
  exact BitVec.toInt_ofInt_eq_self (by decide) (by omega) (by omega)

/-- The truncating remainder is of magnitude below the divisor's. -/
theorem natAbs_tmod_lt (a : Int) {b : Int} (hb : b ≠ 0) : (a.tmod b).natAbs < b.natAbs := by
  rw [Int.natAbs_tmod]
  exact Nat.mod_lt _ (Int.natAbs_pos.mpr hb)

/-- The truncating remainder of a dividend that is not positive is not positive. -/
theorem tmod_nonpos {a : Int} (b : Int) (ha : a ≤ 0) : a.tmod b ≤ 0 := by
  have hneg : 0 ≤ (-a).tmod b := Int.tmod_nonneg b (Int.neg_nonneg_of_nonpos ha)
  rw [Int.neg_tmod] at hneg
  exact Int.nonpos_of_neg_nonneg hneg

/-- The Euclidean remainder is of magnitude below the divisor's. -/
theorem natAbs_emod_lt (a : Int) {b : Int} (hb : b ≠ 0) : (a % b).natAbs < b.natAbs := by
  have hnonneg := Int.emod_nonneg a hb
  have hlt := Int.emod_lt a hb
  omega

/-- A checked answer whose exact value is of magnitude below the divisor's has that value (R436, R438, R439). -/
theorem toInt_of_signedDivide {a b r : Word} {v : Int}
    (h : (if signedDivFails a b then none else some (BitVec.ofInt 64 v)) = some r)
    (hv : b.toInt ≠ 0 → v.natAbs < b.toInt.natAbs) : b.toInt ≠ 0 ∧ r.toInt = v := by
  obtain ⟨hok, hr⟩ := Option.ite_none_left_eq_some.mp h
  have hb := toInt_ne_zero_of_not_signedDivideFails (mt (signedDivFails_iff a b).mpr hok)
  rw [← Option.some.inj hr]
  exact ⟨hb, toInt_ofInt_of_natAbs_lt (hv hb)⟩

/-- An answer of `rem` is the truncating remainder, for a divisor that is not zero (R438). -/
theorem toInt_of_helperRem {a b r : Word} (h : helperRem a b = some r) :
    b.toInt ≠ 0 ∧ r.toInt = a.toInt.tmod b.toInt := by
  rw [helperRem, ← Int.tmod_def] at h
  exact toInt_of_signedDivide h (natAbs_tmod_lt a.toInt)

/-- An answer of `mod` is the Euclidean remainder, for a divisor that is not zero (R439). -/
theorem toInt_of_helperMod {a b r : Word} (h : helperMod a b = some r) :
    b.toInt ≠ 0 ∧ r.toInt = a.toInt % b.toInt :=
  toInt_of_signedDivide h (natAbs_emod_lt a.toInt)

/-- Settles O15: the answer is the integers' truncating remainder, and so are its sign and its bound. -/
theorem remainderHelper : Obligations.RemainderHelper := by
  refine ⟨fun a b => ⟨helperRem_eq_none_iff a b, fun r h => ?_⟩, by decide⟩
  obtain ⟨hb, hr⟩ := toInt_of_helperRem h
  rw [← Int.tmod_def, hr]
  exact ⟨rfl, natAbs_tmod_lt _ hb, Int.tmod_nonneg _, tmod_nonpos _⟩

/-- Settles O16: the answer is the integers' Euclidean remainder, with their quotient. -/
theorem moduloHelper : Obligations.ModuloHelper := by
  refine ⟨fun a b => ⟨helperMod_eq_none_iff a b, fun r h => ?_⟩, by decide⟩
  obtain ⟨hb, hr⟩ := toInt_of_helperMod h
  rw [hr]
  exact ⟨Int.emod_nonneg _ hb, Int.emod_lt _ hb, a.toInt / b.toInt, (Int.ediv_mul_add_emod ..).symm⟩

end Sys2Proof.Machine

/-! PROOF. Proofs/FieldAlgebra: masks and unions of field records, and how packing and reading a word carry them over. A
record is masked and united field by field, so the laws are those of bit vectors. -/
namespace Sys2Proof

/-! ### Masks and unions -/

theorem Fields.mask_assoc (f m n : Fields) : (f.mask m).mask n = f.mask (m.mask n) := by
  simp only [Fields.mask, BitVec.and_assoc]

theorem Fields.mask_comm (f m : Fields) : f.mask m = m.mask f := by
  simp only [Fields.mask, BitVec.and_comm]

theorem Fields.mask_right_comm (f m n : Fields) : (f.mask m).mask n = (f.mask n).mask m := by
  rw [mask_assoc, mask_comm m, ← mask_assoc]

@[simp] theorem Fields.mask_mask_self (f m : Fields) : (f.mask m).mask m = f.mask m := by
  rw [mask_assoc, mask_self]

@[simp] theorem Fields.empty_mask (m : Fields) : Fields.mask {} m = {} := by
  simp [Fields.mask]

@[simp] theorem Fields.union_empty (f : Fields) : f.union {} = f := by
  simp [Fields.union]

@[simp] theorem Fields.empty_union (f : Fields) : Fields.union {} f = f := by
  simp [Fields.union]

theorem Fields.union_comm (f g : Fields) : f.union g = g.union f := by
  simp only [Fields.union, BitVec.or_comm]

theorem Fields.mask_union (f m n : Fields) : f.mask (m.union n) = (f.mask m).union (f.mask n) := by
  simp only [Fields.mask, Fields.union, BitVec.and_or_distrib_left]

theorem Fields.union_mask (f g m : Fields) : (f.union g).mask m = (f.mask m).union (g.mask m) := by
  rw [mask_comm, mask_union, mask_comm m, mask_comm m]

/-- A part of a part is a part of the whole. -/
theorem Fields.within_trans {f m n : Fields} (hf : f.within m) (hm : m.within n) : f.within n := by
  have hfn : f.mask n = f := by
    rw [← show f.mask m = f from hf, mask_assoc, show m.mask n = m from hm]
  exact hfn

/-- A record holds every part of itself. -/
theorem Fields.union_mask_self (f m : Fields) : f.union (f.mask m) = f := by
  have absorb : ∀ {n : Nat} (x y : BitVec n), x ||| x &&& y = x := fun x y =>
    BitVec.eq_of_getLsbD_eq fun i _ => by cases hx : x.getLsbD i <;> simp [hx]
  simp only [Fields.union, Fields.mask, absorb]

theorem Fields.within_union_left {f m : Fields} (h : f.within m) (n : Fields) : f.within (m.union n) := by
  have hf : f.mask (m.union n) = f := by
    rw [mask_union, show f.mask m = f from h, union_mask_self]
  exact hf

theorem Fields.union_within {f g m n : Fields} (hf : f.within m) (hg : g.within n) :
    (f.union g).within (m.union n) := by
  have hg' : g.within (m.union n) := union_comm n m ▸ within_union_left hg m
  have h : (f.union g).mask (m.union n) = f.union g := by
    rw [union_mask, show f.mask _ = f from within_union_left hf n, show g.mask _ = g from hg']
  exact h

/-- A 4-bit field of a masked record is that field under the mask's. -/
theorem Fields.nibble_mask (f m : Fields) (n : NibbleField) : (f.mask m).nibble n = f.nibble n &&& m.nibble n := by
  cases n <;> rfl

/-- Roles move masked fields as they move fields and mask. -/
theorem Fields.mask_place (f m : Fields) (r : Equiv.Perm NibbleField) :
    (f.mask m).place r = (f.place r).mask (m.place r) :=
  Fields.ext_nibble (fun n => by simp [Fields.place, Fields.nibble_mask]) rfl

theorem Fields.place_within {f m : Fields} (h : f.within m) (r : Equiv.Perm NibbleField) :
    (f.place r).within (m.place r) := by
  have hp : (f.place r).mask (m.place r) = f.place r := by rw [← mask_place, show f.mask m = f from h]
  exact hp

/-! ### Words -/

/-- Cutting a value to its low n bits is masking it. -/
theorem setWidth_setWidth_eq_and {w : Nat} (n : Nat) (x : BitVec w) :
    (x.setWidth n).setWidth w = x &&& (BitVec.allOnes n).setWidth w := by
  apply BitVec.eq_of_getLsbD_eq
  intro i hi
  by_cases h : i < n <;> simp [h, hi]

/-- Reading the fields of packed ones gives those that the format has. -/
theorem readFields_packFields (fmt : Format) (f : Fields) (op : BitVec 8) :
    readFields fmt (packFields fmt f op) = f.mask fmt.mask := by
  have whole : ∀ x : Nibble, x &&& 0xF = x := fun x => BitVec.and_allOnes
  have wholeImm : f.imm &&& 0xFFFFF = f.imm := BitVec.and_allOnes
  cases fmt <;>
    simp only [readFields, packFields, unpackE_packE, unpackR_packR, unpackM_packM, unpackF_packF, unpackB_packB,
      Fields.mask, Format.mask, setWidth_setWidth_eq_and, whole, wholeImm] <;>
    simp

theorem opcodeOf_and (w m : InstrWord) : opcodeOf (w &&& m) = opcodeOf w &&& opcodeOf m :=
  BitVec.extractLsb'_and ..

theorem readFields_and (fmt : Format) (w m : InstrWord) :
    readFields fmt (w &&& m) = (readFields fmt w).mask (readFields fmt m) := by
  cases fmt <;>
    simp [readFields, unpackE, unpackR, unpackM, unpackF, unpackB, Fields.mask, BitVec.extractLsb'_and, BitVec.setWidth_and]

/-- A word is made of its opcode and its fields (R106). -/
theorem word_ext (fmt : Format) {v w : InstrWord} (hop : opcodeOf v = opcodeOf w)
    (hf : readFields fmt v = readFields fmt w) : v = w := by
  rw [← packFields_readFields fmt v, ← packFields_readFields fmt w, hop, hf]

/-- Masking a packed word by a packed mask masks its fields and its opcode. -/
theorem packFields_and (fmt : Format) (f m : Fields) (op opMask : BitVec 8) :
    packFields fmt f op &&& packFields fmt m opMask = packFields fmt (f.mask m) (op &&& opMask) := by
  apply word_ext fmt
  · simp only [opcodeOf_and, opcodeOf_packFields]
  · simp only [readFields_and, readFields_packFields]
    rw [← Fields.mask_assoc, Fields.mask_right_comm f, Fields.mask_mask_self, Fields.mask_right_comm]

end Sys2Proof

/-! PROOF. Proofs/VariantRoundTrips: the round trips of variants and of instructions (R131). The two directions of the
decoder's dispatch come first: a record has a head exactly when its dispatch bits are the head's (R110, R132). -/
namespace Sys2Proof

/-! ### The dispatch bits of a record -/

@[simp] theorem nibble_and_ones (x : Nibble) : x &&& 15#4 = x := BitVec.and_allOnes

/-- The dispatch fields of a head are among its dispatch bits (R132). -/
theorem Head.dispatch_within (P : BlockParams) (h : Head) : (h.dispatch P).within h.dispatchMask := by
  cases h with
  | sysctl op => cases op <;> simp [Fields.within, Fields.mask, Head.dispatch, Head.dispatchMask]
  | single | branch | loadImm | cmpi | float | fcnv =>
    simp [Fields.within, Fields.mask, Head.dispatch, Head.dispatchMask]

/-- The dispatch bits are those of a sub-code exactly when func is its code. -/
theorem mask_func_iff (r : Fields) (c : Nibble) : r.mask { func := 0xF } = { func := c } ↔ r.func = c := by
  simp [Fields.mask]

/-- A field is zero exactly when the value has no bit under the field's mask. -/
theorem extractLsb'_eq_zero_iff {n : Nat} (x : BitVec n) (lo w : Nat) (h : lo + w ≤ n) :
    x.extractLsb' lo w = 0#w ↔ x &&& fieldMask n lo w = 0#n := by
  constructor
  · intro hx
    apply BitVec.eq_of_getLsbD_eq
    intro i hi
    have hbit := congrArg (·.getLsbD (i - lo)) hx
    by_cases hin : lo ≤ i ∧ i < lo + w
    · have hpos : lo + (i - lo) = i := by omega
      have hlt : i - lo < w := by omega
      have hxi : x.getLsbD i = false := by simpa [hpos, hlt] using hbit
      rw [BitVec.getLsbD_and, hxi, Bool.false_and, BitVec.getLsbD_zero]
    · rw [BitVec.getLsbD_and, fieldMask_getLsbD, BitVec.getLsbD_zero]
      simpa [hi] using fun _ hlo => by omega
  · intro hx
    apply BitVec.eq_of_getLsbD_eq
    intro i hi
    have hbit := congrArg (·.getLsbD (lo + i)) hx
    have hlt : lo + i < n := by omega
    rw [BitVec.getLsbD_and, fieldMask_getLsbD] at hbit
    simpa [hi, hlt] using hbit

/-- The high byte that the decoder checks is the part of the immediate that the dispatch bits of `int` cover (R118). -/
theorem highByte_eq_zero_iff (x : BitVec 20) :
    (x.setWidth 16).extractLsb' 8 8 = 0#8 ↔ x &&& 65280#20 = 0#20 := by
  have hcut : (x.setWidth 16).extractLsb' 8 8 = x.extractLsb' 8 8 :=
    BitVec.eq_of_getLsbD_eq fun i hi => by
      have hlt : 8 + i < 16 := by omega
      simp [hi, hlt]
  rw [hcut, extractLsb'_eq_zero_iff x 8 8 (by decide), show fieldMask 20 8 8 = 65280#20 by decide]

/-- The dispatch bits are those of `int` exactly when func is its code and the high byte is zero (R118). -/
theorem mask_int_iff (r : Fields) (c : Nibble) :
    r.mask { func := 0xF, imm := 0xFF00 } = { func := c } ↔ r.func = c ∧ r.imm16.extractLsb' 8 8 = 0#8 := by
  simp [Fields.mask, highByte_eq_zero_iff]

/-- A lawful table gives a value for a nibble exactly when the nibble is its code. -/
theorem SubcodeTable.Lawful.ofCode?_eq_some_iff {α : Type} {T : SubcodeTable α} (hT : T.Lawful) {n : Nibble} {a : α} :
    T.ofCode? n = some a ↔ n = T.code a :=
  ⟨fun h => (hT.2 n a h).symm, fun h => h ▸ hT.1 a⟩

/-- The head that is read is of the kind that the opcode selects (R110). -/
theorem kind_of_readHead {P : BlockParams} {k : OpKind} {r : Fields} {h : Head} (hr : readHead P k r = .ok h) :
    h.kind = k := by
  cases k with
  | single m =>
    obtain rfl : Head.single m = h := by simpa [readHead] using hr
    rfl
  | sysctl =>
    simp only [readHead] at hr
    split at hr
    · contradiction
    · split at hr
      · contradiction
      · obtain rfl := Except.ok.inj hr; rfl
    · obtain rfl := Except.ok.inj hr; rfl
  | branch | loadImm | cmpi | float op | fcnv =>
    simp only [readHead] at hr
    split at hr
    · contradiction
    · obtain rfl := Except.ok.inj hr; rfl

/-- A record has a head of its kind exactly when its dispatch bits are the head's (R110). -/
theorem readHead_kind_iff {P : BlockParams} (hP : P.Lawful) {r : Fields} (h : Head) :
    readHead P h.kind r = .ok h ↔ r.mask h.dispatchMask = h.dispatch P := by
  cases h with
  | single m => simp [readHead, Head.kind, Head.dispatch, Head.dispatchMask, Fields.mask]
  | sysctl op =>
    cases op with
    | int =>
      simp only [Head.dispatch, Head.dispatchMask, mask_int_iff, ← hP.sysctl.ofCode?_eq_some_iff, readHead, Head.kind]
      cases hop : P.sysctl.ofCode? r.func with
      | none => simp
      | some op => cases op <;> simp [intIdOfField]; split <;> simp_all
    | iret | ires | usr =>
      simp only [Head.dispatch, Head.dispatchMask, mask_func_iff, ← hP.sysctl.ofCode?_eq_some_iff, readHead, Head.kind]
      cases hop : P.sysctl.ofCode? r.func with
      | none => simp
      | some op => cases op <;> simp [intIdOfField]; split <;> simp_all
  | branch c =>
    simp only [Head.dispatch, Head.dispatchMask, mask_func_iff, ← hP.cond.ofCode?_eq_some_iff, readHead, Head.kind]
    cases P.cond.ofCode? r.func <;> simp
  | loadImm t =>
    simp only [Head.dispatch, Head.dispatchMask, mask_func_iff, ← hP.liType.ofCode?_eq_some_iff, readHead, Head.kind]
    cases P.liType.ofCode? r.func <;> simp
  | cmpi o =>
    simp only [Head.dispatch, Head.dispatchMask, mask_func_iff, ← hP.order.ofCode?_eq_some_iff, readHead, Head.kind]
    cases P.order.ofCode? r.func <;> simp
  | float op p =>
    simp only [Head.dispatch, Head.dispatchMask, mask_func_iff, ← hP.prec.ofCode?_eq_some_iff, readHead, Head.kind]
    cases P.prec.ofCode? r.func <;> simp
  | fcnv f t =>
    simp only [Head.dispatch, Head.dispatchMask, mask_func_iff, ← hP.fcnv.ofCode?_eq_some_iff, readHead, Head.kind]
    cases P.fcnv.ofCode? r.func <;> simp [Prod.ext_iff]

/-- A record has a head exactly when the head is of the kind that the opcode selects and the record's dispatch bits are
the head's (R110). -/
theorem readHead_eq_ok_iff {P : BlockParams} (hP : P.Lawful) {k : OpKind} {r : Fields} {h : Head} :
    readHead P k r = .ok h ↔ h.kind = k ∧ r.mask h.dispatchMask = h.dispatch P := by
  constructor
  · intro hr
    obtain rfl := kind_of_readHead hr
    exact ⟨rfl, (readHead_kind_iff hP h).mp hr⟩
  · rintro ⟨rfl, hr⟩
    exact (readHead_kind_iff hP h).mpr hr

/-- A word decodes to a variant exactly when its opcode selects a kind, its dispatch bits are the variant's, and the
variant's operands are the used fields of the word (R110). -/
theorem decodeVariant_eq_ok_iff {P : BlockParams} (hP : P.Lawful) {w : InstrWord} {v : Variant} :
    decodeVariant P w = .ok v ↔
      opcodeOf w = P.opcode v.head.kind ∧
      (readFields (P.formatOf v.head.kind) w).mask v.head.dispatchMask = v.head.dispatch P ∧
      v.operands = (readFields (P.formatOf v.head.kind) w).mask (P.used v.head) := by
  have kindIff : ∀ k, P.kindOf (opcodeOf w) = some k ↔ opcodeOf w = P.opcode k := fun k =>
    ⟨fun h => (hP.opcode_kindOf _ _ h).symm, fun h => h ▸ hP.kindOf_opcode k⟩
  obtain ⟨h, o⟩ := v
  unfold decodeVariant
  constructor
  · intro hd
    split at hd
    · contradiction
    · next k hk =>
      dsimp only at hd
      split at hd
      · contradiction
      · next h' hr =>
        obtain ⟨rfl, rfl⟩ := Variant.mk.inj (Except.ok.inj hd)
        obtain ⟨rfl, hbits⟩ := (readHead_eq_ok_iff hP).mp hr
        exact ⟨(kindIff _).mp hk, hbits, rfl⟩
  · rintro ⟨hop, hbits, ho⟩
    dsimp only at hop hbits ho ⊢
    simp only [(kindIff _).mpr hop, (readHead_kind_iff hP h).mpr hbits, ho]

/-! ### The round trips of variants -/

/-- The fields of an encoded variant are fields of its format (R132). -/
theorem encoded_fields_within {P : BlockParams} (hP : P.Lawful) (v : Variant) :
    ((v.operands.mask (P.used v.head)).union (v.head.dispatch P)).within (P.formatOf v.head.kind).mask :=
  Fields.within_trans
    (Fields.union_within (Fields.mask_mask_self v.operands (P.used v.head)) (v.head.dispatch_within P))
    (hP.fields v.head)

/-- R131(a): a variant whose operands lie in its used fields is decoded from its encoding. -/
theorem decodeVariant_encodeVariant {P : BlockParams} (hP : P.Lawful) {v : Variant}
    (hv : v.operands.within (P.used v.head)) : decodeVariant P (encodeVariant P v) = .ok v := by
  have hread : readFields (P.formatOf v.head.kind) (encodeVariant P v) = v.operands.union (v.head.dispatch P) := by
    rw [encodeVariant, readFields_packFields, show Fields.mask _ _ = _ from encoded_fields_within hP v,
      show v.operands.mask _ = _ from hv]
  have hoperands : v.operands.mask v.head.dispatchMask = {} := by
    rw [← show v.operands.mask _ = _ from hv, Fields.mask_assoc, hP.disjoint, Fields.mask_comm, Fields.empty_mask]
  have hdispatch : (v.head.dispatch P).mask (P.used v.head) = {} := by
    rw [← show (v.head.dispatch P).mask _ = _ from v.head.dispatch_within P, Fields.mask_assoc,
      Fields.mask_comm v.head.dispatchMask, hP.disjoint, Fields.mask_comm, Fields.empty_mask]
  refine (decodeVariant_eq_ok_iff hP).mpr ⟨opcodeOf_packFields .., ?_, ?_⟩
  · rw [hread, Fields.union_mask, hoperands, Fields.empty_union]
    exact v.head.dispatch_within P
  · rw [hread, Fields.union_mask, hdispatch, Fields.union_empty, show v.operands.mask _ = _ from hv]

/-- The operands of a decoded variant lie in its used fields (R132). -/
theorem decodeVariant_within {P : BlockParams} (hP : P.Lawful) {w : InstrWord} {v : Variant}
    (hd : decodeVariant P w = .ok v) : v.operands.within (P.used v.head) := by
  obtain ⟨-, -, ho⟩ := (decodeVariant_eq_ok_iff hP).mp hd
  rw [ho]
  exact Fields.mask_mask_self ..

/-- R131(b): the encoding of a decoded variant is the word with every unused field zero. -/
theorem encodeVariant_of_decodeVariant {P : BlockParams} (hP : P.Lawful) {w : InstrWord} {v : Variant}
    (hd : decodeVariant P w = .ok v) : encodeVariant P v = w &&& usedMask P v.head := by
  obtain ⟨hop, hbits, ho⟩ := (decodeVariant_eq_ok_iff hP).mp hd
  have hpack := packFields_readFields (P.formatOf v.head.kind) w
  rw [usedMask, ← hpack, packFields_and, Fields.mask_union, hbits, ← ho, show (0xFF : BitVec 8) = BitVec.allOnes 8 from rfl,
    BitVec.and_allOnes, hop, encodeVariant, show v.operands.mask _ = _ from decodeVariant_within hP hd]

/-- Settles O60: packing and reading are inverse on the bits of a format, and the used fields and the dispatch bits are
apart there. -/
theorem variantRoundTripsUnderAnyAssignment : Obligations.VariantRoundTripsUnderAnyAssignment := by
  refine fun P hP => ⟨fun v => decodeVariant_encodeVariant hP, fun w v hd => ?_⟩
  have hcanon : canonWith P w = some (encodeVariant P v) := by
    simp only [canonWith, hd, encodeVariant_of_decodeVariant hP hd]
  refine ⟨decodeVariant_within hP hd, hcanon, fun h => ?_⟩
  rw [isCanonicalWith, hcanon] at h
  simpa using h

/-! ### The round trips of instructions -/

/-- An immediate of n bits has no bit above them. -/
theorem setWidth_and_allOnes {n : Nat} (x : BitVec n) (w : Nat) :
    x.setWidth w &&& (BitVec.allOnes n).setWidth w = x.setWidth w := by
  rw [← BitVec.setWidth_and, BitVec.and_allOnes]

/-- The operands of an instruction are those that its row of the opcode table lists (R132). -/
theorem Instr.operands_within (i : Instr) : i.operands.within i.head.defaultUsed := by
  have imm8 : ∀ x : BitVec 8, x.setWidth 20 &&& 255#20 = x.setWidth 20 := fun x => setWidth_and_allOnes x 20
  have imm16 : ∀ x : BitVec 16, x.setWidth 20 &&& 65535#20 = x.setWidth 20 := fun x => setWidth_and_allOnes x 20
  have imm20 : ∀ x : BitVec 20, x &&& 1048575#20 = x := fun x => BitVec.and_allOnes
  have intr : ∀ x : IntId, (x.setWidth 16).setWidth 20 = x.setWidth 20 := fun x => BitVec.setWidth_setWidth (by decide)
  cases i <;> simp [Fields.within, Instr.operands, Instr.head, Head.defaultUsed, Fields.mask, portToField, intIdToField,
    imm8, imm16, imm20, intr]

/-- Settles O58: an instruction is a variant whose operands are placed in its used fields. -/
theorem decodeOfEncodeUnderAnyAssignment : Obligations.DecodeOfEncodeUnderAnyAssignment := by
  intro P hP hcovers i
  have hwithin : (i.operands.place (P.roles i.head)).within (P.used i.head) :=
    Fields.within_trans (Fields.place_within i.operands_within _) (hcovers i.head)
  have hvariant := decodeVariant_encodeVariant (v := ⟨i.head, i.operands.place (P.roles i.head)⟩) hP hwithin
  simp only [decodeWith, encodeWith, hvariant, Fields.select_place, Instr.toInstr_head]

/-- Settles O1: the default parameters are lawful and cover every operand. -/
theorem decodeOfEncode : Obligations.DecodeOfEncode :=
  decodeOfEncodeUnderAnyAssignment _ defaultParams_lawful defaultParams_coversInstr

/-- A word decodes to an instruction exactly when it decodes to a variant of it (R110). -/
theorem decodeWith_eq_some_iff {P : BlockParams} {w : InstrWord} {i : Instr} :
    decodeWith P w = .some i ↔
      ∃ v, decodeVariant P w = .ok v ∧ v.head.toInstr (v.operands.select (P.roles v.head)) = i := by
  unfold decodeWith
  cases decodeVariant P w <;> simp

/-- An instruction made from a head has that head. -/
@[simp] theorem Head.head_toInstr (h : Head) (o : Fields) : (h.toInstr o).head = h := by
  match h with
  | .single m => cases m <;> first | rfl | (rename_i a; cases a <;> rfl)
  | .sysctl op => cases op <;> rfl
  | .branch c => cases c <;> rfl
  | .loadImm t => cases t <;> rfl
  | .cmpi o => rfl
  | .float op p => cases op <;> cases p <;> rfl
  | .fcnv f t => cases f <;> cases t <;> rfl

/-- An instruction made from a head has the operands that its row of the opcode table lists (R132). -/
theorem Head.operands_toInstr (h : Head) (o : Fields) : (h.toInstr o).operands = o.mask h.defaultUsed := by
  have imm8 : (o.imm.setWidth 8).setWidth 20 = o.imm &&& 255#20 := setWidth_setWidth_eq_and 8 o.imm
  have imm16 : (o.imm.setWidth 16).setWidth 20 = o.imm &&& 65535#20 := setWidth_setWidth_eq_and 16 o.imm
  have imm20 : o.imm &&& 1048575#20 = o.imm := BitVec.and_allOnes
  have intr : ((o.imm.setWidth 8).setWidth 16).setWidth 20 = o.imm &&& 255#20 := by
    rw [← imm8]
    exact BitVec.setWidth_setWidth (by decide)
  match h with
  | .single m =>
    cases m <;> first
      | (rename_i a; cases a <;> simp [Head.toInstr, Instr.operands, Head.defaultUsed, Fields.mask, imm16])
      | simp [Head.toInstr, Instr.operands, Head.defaultUsed, Fields.mask, portToField, portOfField, imm8, imm16]
  | .sysctl op =>
    cases op <;> simp [Head.toInstr, Instr.operands, Head.defaultUsed, Fields.mask, intIdToField, intr]
  | .branch c => cases c <;> simp [Head.toInstr, Instr.operands, Head.defaultUsed, Fields.mask, imm20]
  | .loadImm t => cases t <;> simp [Head.toInstr, Instr.operands, Head.defaultUsed, Fields.mask, imm16]
  | .cmpi o => simp [Head.toInstr, Instr.operands, Head.defaultUsed, Fields.mask, imm16]
  | .float op p => cases op <;> cases p <;> simp [Head.toInstr, Instr.operands, Head.defaultUsed, Fields.mask]
  | .fcnv f t => cases f <;> cases t <;> simp [Head.toInstr, Instr.operands, Head.defaultUsed, Fields.mask]

/-- At the default, an instruction decoded from a word is encoded as the variant it comes from (R130, R131). -/
theorem encode_toInstr {v : Variant} (hv : v.operands.within v.head.defaultUsed) :
    encode (v.head.toInstr v.operands) = encodeVariant defaultParams v := by
  simp only [encode, encodeWith, Head.head_toInstr, Head.operands_toInstr, show v.operands.mask _ = _ from hv,
    show ∀ h, defaultParams.roles h = Equiv.refl _ from fun _ => rfl, Fields.place_refl]

/-- A word decodes, at the default, to the instruction of a variant that lies in its used fields. -/
theorem exists_variant_of_decode {w : InstrWord} {i : Instr} (h : decode w = .some i) :
    ∃ v, decodeVariant defaultParams w = .ok v ∧ v.operands.within v.head.defaultUsed ∧ i.head = v.head ∧
      encode i = encodeVariant defaultParams v := by
  obtain ⟨v, hd, rfl⟩ := decodeWith_eq_some_iff.mp h
  have hwithin := decodeVariant_within defaultParams_lawful hd
  exact ⟨v, hd, hwithin, Head.head_toInstr .., encode_toInstr hwithin⟩

/-- Settles O2: a decoded word's instruction encodes as its variant, whose encoding is the canonical word. -/
theorem reencodeIsCanonical : Obligations.ReencodeIsCanonical := by
  intro w i h
  obtain ⟨v, hd, -, -, henc⟩ := exists_variant_of_decode h
  obtain ⟨-, hcanon, hword⟩ := (variantRoundTripsUnderAnyAssignment _ defaultParams_lawful).2 w v hd
  rw [henc]
  exact ⟨hcanon, hword⟩

end Sys2Proof

/-! PROOF. Proofs/OpcodeTable: a word that decodes matches one row of the table (R134). A row tests the opcode and the
dispatch bits, which decoding reads too; only the row of `cmpi` stands for two heads. -/
namespace Sys2Proof

/-- The bits of a record that a row of the opcode table tests beside the opcode: the dispatch bits, but for the compare
order, which the row of `cmpi` leaves as an operand (R125, R134). -/
def Head.rowBits : Head → Fields
  | .cmpi _ => { func := 0xE }
  | h => h.dispatchMask

theorem Head.rowBits_within (h : Head) : h.rowBits.within h.dispatchMask := by
  cases h with
  | cmpi o => exact (by decide : Fields.mask { func := 0xE } { func := 0xF } = { func := 0xE })
  | single | sysctl | branch | loadImm | float | fcnv => exact Fields.mask_self _

/-- What each row of the opcode table tests: the opcode, and the dispatch bits of its head (R134). -/
theorem Instr.row_tests (i : Instr) :
    opcodeOf i.row.mask = BitVec.allOnes 8 ∧ opcodeOf i.row.value = i.head.kind.defaultOpcode ∧
    readFields (defaultParams.formatOf i.head.kind) i.row.mask = i.head.rowBits ∧
    readFields (defaultParams.formatOf i.head.kind) i.row.value = (i.head.dispatch defaultParams).mask i.head.rowBits := by
  cases i with
  | cmpi o => cases o <;> simp only [Instr.head, Instr.row] <;> decide
  | _ => simp only [Instr.head, Instr.row]; decide

/-- A word matches a row exactly when its opcode and the tested dispatch bits are those of the row's head (R134). -/
theorem Instr.row_covers_iff (i : Instr) (w : InstrWord) :
    i.row.covers w = true ↔
      opcodeOf w = i.head.kind.defaultOpcode ∧
      (readFields (defaultParams.formatOf i.head.kind) w).mask i.head.rowBits =
        (i.head.dispatch defaultParams).mask i.head.rowBits := by
  obtain ⟨hopMask, hop, hmask, hvalue⟩ := i.row_tests
  rw [Row.covers, beq_iff_eq]
  constructor
  · intro hw
    rw [← hop, ← hvalue, ← hw, opcodeOf_and, readFields_and, hopMask, hmask, BitVec.and_allOnes]
    exact ⟨rfl, rfl⟩
  · rintro ⟨hwop, hwbits⟩
    apply word_ext (defaultParams.formatOf i.head.kind)
    · rw [opcodeOf_and, hopMask, BitVec.and_allOnes, hop, hwop]
    · rw [readFields_and, hmask, hvalue, hwbits]

/-- The row of an instruction depends on its head alone. -/
theorem Instr.row_eq_row_head (i : Instr) : i.row = (i.head.toInstr {}).row := by
  cases i <;> rfl

/-- Both compare orders have one row. -/
theorem row_of_cmpi {h g : Head} (hh : h.kind = .cmpi) (hg : g.kind = .cmpi) : (h.toInstr {}).row = (g.toInstr {}).row := by
  cases h <;> cases g <;> first | rfl | contradiction

theorem Head.toInstr_mem_samples (h : Head) (hh : h ≠ .cmpi .immediateFirst) : h.toInstr {} ∈ allSamples := by
  match h with
  | .single m => cases m <;> first | (rename_i a; cases a <;> decide) | decide
  | .sysctl op => cases op <;> decide
  | .branch c => cases c <;> decide
  | .loadImm t => cases t <;> decide
  | .cmpi .registerFirst => decide
  | .float op p => cases op <;> cases p <;> decide
  | .fcnv f t => cases f <;> cases t <;> decide

/-- The row of each head is in the table of 136 rows. -/
theorem Head.row_mem_opcodeRows (h : Head) : (h.toInstr {}).row ∈ opcodeRows := by
  by_cases hh : h = .cmpi .immediateFirst
  · rw [hh, row_of_cmpi (g := .cmpi .registerFirst) rfl rfl]
    exact List.mem_map_of_mem (Head.toInstr_mem_samples _ (by decide))
  · exact List.mem_map_of_mem (h.toInstr_mem_samples hh)

/-- A row that matches a word that decodes is the row of the word's head (R134). -/
theorem row_eq_of_covers {w : InstrWord} {v : Variant} (hd : decodeVariant defaultParams w = .ok v) {j : Instr}
    (hj : j.row.covers w = true) : j.row = (v.head.toInstr {}).row := by
  obtain ⟨hop, hbits, -⟩ := (decodeVariant_eq_ok_iff defaultParams_lawful).mp hd
  obtain ⟨hjop, hjbits⟩ := (j.row_covers_iff w).mp hj
  have hkind : j.head.kind = v.head.kind := by
    have hsame := congrArg defaultKindOf (hjop.symm.trans hop)
    simpa [defaultKindOf_defaultOpcode, show defaultParams.opcode = OpKind.defaultOpcode from rfl] using hsame
  rw [j.row_eq_row_head]
  by_cases hcmpi : j.head.kind = .cmpi
  · exact row_of_cmpi hcmpi (hkind ▸ hcmpi)
  · have htests : j.head.rowBits = j.head.dispatchMask := by
      cases hhead : j.head with
      | cmpi o => exact absurd (congrArg Head.kind hhead) hcmpi
      | _ => rfl
    rw [htests, show Fields.mask (j.head.dispatch _) _ = _ from j.head.dispatch_within _] at hjbits
    have hread := (readHead_eq_ok_iff defaultParams_lawful).mpr ⟨rfl, hjbits⟩
    have hreadv := (readHead_eq_ok_iff defaultParams_lawful).mpr ⟨rfl, hbits⟩
    rw [hkind, hreadv] at hread
    rw [Except.ok.inj hread]

/-- The row of a decoded instruction matches the word. -/
theorem row_covers_of_decode {w : InstrWord} {v : Variant} (hd : decodeVariant defaultParams w = .ok v) {i : Instr}
    (hi : i.head = v.head) : i.row.covers w = true := by
  obtain ⟨hop, hbits, -⟩ := (decodeVariant_eq_ok_iff defaultParams_lawful).mp hd
  refine (i.row_covers_iff w).mpr ⟨hi ▸ hop, ?_⟩
  rw [hi, ← hbits, Fields.mask_assoc, Fields.mask_comm v.head.dispatchMask,
    show v.head.rowBits.mask _ = _ from v.head.rowBits_within]

/-- Settles O4: a row that matches a decoded word tests the same opcode and dispatch bits as its instruction's row. -/
theorem decodedWordMatchesOneRow : Obligations.DecodedWordMatchesOneRow := by
  intro w i h
  obtain ⟨v, hd, -, hhead, -⟩ := exists_variant_of_decode h
  have hrow : i.row = (v.head.toInstr {}).row := hhead ▸ i.row_eq_row_head
  refine ⟨hrow ▸ v.head.row_mem_opcodeRows, fun r hr => ⟨fun hcov => ?_, fun hr => ?_⟩⟩
  · obtain ⟨j, -, rfl⟩ := List.mem_map.mp hr
    exact (row_eq_of_covers hd hcov).trans hrow.symm
  · rw [hr]
    exact row_covers_of_decode hd hhead

end Sys2Proof

/-! PROOF. Proofs/DecodeFailures: which words fail to decode and for which reason (R112, R113, R501, R502), and the code of
the reason on the decoder port. -/
namespace Sys2Proof

/-! ### The reasons, under any parameters -/

/-- The record has no sub-code of its kind (R113). -/
def OpKind.LacksSubcode (P : BlockParams) (r : Fields) : OpKind → Prop
  | .single _ => False
  | .sysctl => P.sysctl.ofCode? r.func = none
  | .branch => P.cond.ofCode? r.func = none
  | .loadImm => P.liType.ofCode? r.func = none
  | .cmpi => P.order.ofCode? r.func = none
  | .float _ => P.prec.ofCode? r.func = none
  | .fcnv => P.fcnv.ofCode? r.func = none

/-- Reading a head fails for the sub-code exactly where there is none (R113, R502). -/
theorem readHead_eq_badSubcode_iff {P : BlockParams} {k : OpKind} {r : Fields} :
    readHead P k r = .error .badSubcode ↔ k.LacksSubcode P r := by
  cases k with
  | single m => simp [readHead, OpKind.LacksSubcode]
  | sysctl =>
    simp only [readHead, OpKind.LacksSubcode]
    cases P.sysctl.ofCode? r.func with
    | none => simp
    | some op => cases op <;> simp; split <;> simp
  | branch => simp only [readHead, OpKind.LacksSubcode]; cases P.cond.ofCode? r.func <;> simp
  | loadImm => simp only [readHead, OpKind.LacksSubcode]; cases P.liType.ofCode? r.func <;> simp
  | cmpi => simp only [readHead, OpKind.LacksSubcode]; cases P.order.ofCode? r.func <;> simp
  | float op => simp only [readHead, OpKind.LacksSubcode]; cases P.prec.ofCode? r.func <;> simp
  | fcnv => simp only [readHead, OpKind.LacksSubcode]; cases P.fcnv.ofCode? r.func <;> simp

/-- Reading a head never fails for the opcode (R502). -/
theorem readHead_ne_badOpcode (P : BlockParams) (k : OpKind) (r : Fields) : readHead P k r ≠ .error .badOpcode := by
  intro h
  cases k with
  | single m => simp [readHead] at h
  | sysctl =>
    simp only [readHead] at h
    split at h
    · simp at h
    · split at h <;> simp at h
    · simp at h
  | branch | loadImm | cmpi | float op | fcnv => simp only [readHead] at h; split at h <;> simp at h

/-- A word fails for its opcode exactly when the opcode selects nothing (R112). -/
theorem decodeVariant_eq_badOpcode_iff {P : BlockParams} {w : InstrWord} :
    decodeVariant P w = .error .badOpcode ↔ P.kindOf (opcodeOf w) = none := by
  simp [decodeVariant_eq_error_iff, readHead_ne_badOpcode]

/-- A word fails for its sub-code exactly when its opcode selects a kind without that sub-code (R113). -/
theorem decodeVariant_eq_badSubcode_iff {P : BlockParams} {w : InstrWord} :
    decodeVariant P w = .error .badSubcode ↔
      ∃ k, P.kindOf (opcodeOf w) = some k ∧ k.LacksSubcode P (readFields (P.formatOf k) w) := by
  simp [decodeVariant_eq_error_iff, readHead_eq_badSubcode_iff]

/-! ### The reasons, at the default -/

/-- An opcode selects nothing exactly when it has no family (R111, R112). -/
theorem defaultKindOf_eq_none_iff (op : BitVec 8) : defaultKindOf op = none ↔ familyOf op = none := by
  rw [← defaultParams_lawful.family op, Option.map_eq_none_iff]
  rfl

/-- An opcode selects a kind exactly when it is the kind's opcode (R120). -/
theorem defaultKindOf_eq_some_iff {op : BitVec 8} {k : OpKind} : defaultKindOf op = some k ↔ op = k.defaultOpcode :=
  ⟨fun h => (defaultParams_lawful.opcode_kindOf op k h).symm, fun h => h ▸ defaultKindOf_defaultOpcode k⟩

theorem decode_eq_badOpcode_iff (w : InstrWord) : decode w = .none .badOpcode ↔ familyOf (opcodeOf w) = none := by
  rw [decode, decodeWith_eq_none_iff, decodeVariant_eq_badOpcode_iff]
  exact defaultKindOf_eq_none_iff _

/-- Settles O5: the opcodes are checked one by one; a word of one without a family has no kind. -/
theorem unassignedOpcodesFail : Obligations.UnassignedOpcodesFail := by
  refine ⟨by decide, ?_, fun w => (decode_eq_badOpcode_iff w).mpr⟩
  set_option maxRecDepth 4000 in decide

/-- The opcodes of the float operations with one precision (R111, R120). -/
theorem exists_float_opcode_iff (op : BitVec 8) :
    (∃ f, op = (OpKind.float f).defaultOpcode) ↔ 0x40 ≤ op.toNat ∧ op.toNat ≤ 0x4F ∧ op ≠ 0x4E := by
  constructor
  · rintro ⟨f, rfl⟩
    cases f <;> decide
  · intro h
    have isFloat : ∀ op : BitVec 8, 0x40 ≤ op.toNat ∧ op.toNat ≤ 0x4F ∧ op ≠ 0x4E →
        (match defaultKindOf op with | some (.float _) => true | _ => false) = true := by decide
    have hop := isFloat op h
    split at hop
    · next f hf => exact ⟨f, defaultKindOf_eq_some_iff.mp hf⟩
    · contradiction

/-- Which nibbles have no sub-code (R121 to R126). -/
theorem ofCode?_eq_none_iff (n : Nibble) :
    (SysctlOp.ofCode? n = none ↔ 4 ≤ n.toNat) ∧ (BranchCond.ofCode? n = none ↔ n = 7 ∨ n = 8 ∨ n = 15) ∧
    (LiType.ofCode? n = none ↔ 8 ≤ n.toNat) ∧ (CompareOrder.ofCode? n = none ↔ 2 ≤ n.toNat) ∧
    (FloatPrec.ofCode? n = none ↔ 3 ≤ n.toNat) ∧
    (fcnvSplit n = none ↔ n.extractLsb' 0 2 = 3 ∨ n.extractLsb' 2 2 = 3) := by
  revert n
  decide

/-- The words that fail for their sub-code, kind by kind (R113, R121 to R126). -/
theorem decode_eq_badSubcode_iff (w : InstrWord) : decode w = .none .badSubcode ↔
    (opcodeOf w = 0x01 ∧ 4 ≤ (w.extractLsb' 24 4).toNat) ∨
    (opcodeOf w = 0x0A ∧ (w.extractLsb' 28 4 = 7 ∨ w.extractLsb' 28 4 = 8 ∨ w.extractLsb' 28 4 = 15)) ∨
    (opcodeOf w = 0x10 ∧ 8 ≤ (w.extractLsb' 24 4).toNat) ∨
    (opcodeOf w = 0x1F ∧ 2 ≤ (w.extractLsb' 24 4).toNat) ∨
    (0x40 ≤ (opcodeOf w).toNat ∧ (opcodeOf w).toNat ≤ 0x4F ∧ opcodeOf w ≠ 0x4E ∧ 3 ≤ (w.extractLsb' 16 4).toNat) ∨
    (opcodeOf w = 0x4E ∧ (w.extractLsb' 16 2 = 3 ∨ w.extractLsb' 18 2 = 3)) := by
  obtain ⟨hsysctl, -, hli, horder, -, -⟩ := ofCode?_eq_none_iff (w.extractLsb' 24 4)
  obtain ⟨-, hcond, -, -, -, -⟩ := ofCode?_eq_none_iff (w.extractLsb' 28 4)
  obtain ⟨-, -, -, -, hprec, hfcnv⟩ := ofCode?_eq_none_iff (w.extractLsb' 16 4)
  rw [extractLsb'_extractLsb' w (by decide), extractLsb'_extractLsb' w (by decide)] at hfcnv
  rw [decode, decodeWith_eq_none_iff, decodeVariant_eq_badSubcode_iff]
  constructor
  · rintro ⟨k, hkind, hlacks⟩
    have hop : opcodeOf w = k.defaultOpcode := defaultKindOf_eq_some_iff.mp hkind
    cases k with
    | single m => exact hlacks.elim
    | sysctl => exact .inl ⟨hop, hsysctl.mp hlacks⟩
    | branch => exact .inr (.inl ⟨hop, hcond.mp hlacks⟩)
    | loadImm => exact .inr (.inr (.inl ⟨hop, hli.mp hlacks⟩))
    | cmpi => exact .inr (.inr (.inr (.inl ⟨hop, horder.mp hlacks⟩)))
    | float f =>
      obtain ⟨hlow, hhigh, hcast⟩ := (exists_float_opcode_iff _).mp ⟨f, hop⟩
      exact .inr (.inr (.inr (.inr (.inl ⟨hlow, hhigh, hcast, hprec.mp hlacks⟩))))
    | fcnv => exact .inr (.inr (.inr (.inr (.inr ⟨hop, hfcnv.mp hlacks⟩))))
  · have kind : ∀ {k : OpKind}, opcodeOf w = k.defaultOpcode → defaultParams.kindOf (opcodeOf w) = some k :=
      defaultKindOf_eq_some_iff.mpr
    rintro (⟨hop, h⟩ | ⟨hop, h⟩ | ⟨hop, h⟩ | ⟨hop, h⟩ | ⟨hlow, hhigh, hcast, h⟩ | ⟨hop, h⟩)
    · exact ⟨.sysctl, kind hop, hsysctl.mpr h⟩
    · exact ⟨.branch, kind hop, hcond.mpr h⟩
    · exact ⟨.loadImm, kind hop, hli.mpr h⟩
    · exact ⟨.cmpi, kind hop, horder.mpr h⟩
    · obtain ⟨f, hop⟩ := (exists_float_opcode_iff _).mpr ⟨hlow, hhigh, hcast⟩
      exact ⟨.float f, kind hop, hprec.mpr h⟩
    · exact ⟨.fcnv, kind hop, hfcnv.mpr h⟩

/-- The words that fail for the high byte of the interrupt operand (R118). -/
theorem decode_eq_badIntHighByte_iff (w : InstrWord) : decode w = .none .badIntHighByte ↔
    opcodeOf w = 0x01 ∧ w.extractLsb' 24 4 = 0 ∧ w.extractLsb' 16 8 ≠ 0 := by
  constructor
  · intro h
    obtain ⟨hop, hfunc⟩ := trap_of_decode_badIntHighByte h
    refine ⟨hop, hfunc, fun hhigh => ?_⟩
    rw [decode_trap hop hfunc, if_pos hhigh] at h
    contradiction
  · rintro ⟨hop, hfunc, hhigh⟩
    rw [decode_trap hop hfunc, if_neg hhigh]

/-! ### The reason on the decoder port -/

/-- The port of a word whose opcode selects nothing (R142). -/
theorem decoderPortWith_of_none {P : BlockParams} {w : InstrWord} (h : P.kindOf (opcodeOf w) = none) :
    decoderPortWith P w = { valid := false, failReason := FailReason.badOpcode.code } := by
  simp only [decoderPortWith, h]

/-- The port of a word whose opcode is assigned and which fails to decode (R142). -/
theorem decoderPortWith_of_error {P : BlockParams} {w : InstrWord} {k : OpKind} {e : FailReason}
    (hk : P.kindOf (opcodeOf w) = some k) (he : decodeVariant P w = .error e) :
    decoderPortWith P w = portFields (P.formatOf k) w { valid := false, failReason := e.code } := by
  simp only [decoderPortWith, hk, he]

/-- The port of a word that decodes (R142). -/
theorem decoderPortWith_of_ok {P : BlockParams} {w : InstrWord} {k : OpKind} {v : Variant}
    (hk : P.kindOf (opcodeOf w) = some k) (hv : decodeVariant P w = .ok v) :
    decoderPortWith P w = portVariant v (portFields (P.formatOf k) w { valid := true, failReason := 0 }) := by
  simp only [decoderPortWith, hk, hv]

/-- A word that decodes, or fails for another reason than the opcode, has an assigned opcode. -/
theorem exists_kind_of_ne_badOpcode {P : BlockParams} {w : InstrWord} (h : decodeVariant P w ≠ .error .badOpcode) :
    ∃ k, P.kindOf (opcodeOf w) = some k :=
  Option.ne_none_iff_exists'.mp (mt decodeVariant_eq_badOpcode_iff.mpr h)

/-- The outputs that say what a variant is leave `valid` and `fail_reason` as they are (R142). -/
theorem portVariant_valid_failReason (v : Variant) (base : DecoderPort) :
    (portVariant v base).valid = base.valid ∧ (portVariant v base).failReason = base.failReason := by
  obtain ⟨h, o⟩ := v
  cases h with
  | sysctl op => cases op <;> exact ⟨rfl, rfl⟩
  | single | branch | loadImm | cmpi | float | fcnv => exact ⟨rfl, rfl⟩

/-- `valid` and `fail_reason` of a word that decodes (R501). -/
theorem decoderPort_of_some {w : InstrWord} {i : Instr} (h : decode w = .some i) :
    (decoderPort w).valid = true ∧ (decoderPort w).failReason = 0 := by
  obtain ⟨v, hv, -⟩ := decodeWith_eq_some_iff.mp h
  obtain ⟨k, hk⟩ := exists_kind_of_ne_badOpcode (P := defaultParams) (w := w) (by simp [hv])
  rw [decoderPort, decoderPortWith_of_ok hk hv]
  exact portVariant_valid_failReason _ _

/-- `valid` and `fail_reason` of a word that fails to decode (R501). -/
theorem decoderPort_of_none {w : InstrWord} {e : FailReason} (h : decode w = .none e) :
    (decoderPort w).valid = false ∧ (decoderPort w).failReason = e.code := by
  have he := decodeWith_eq_none_iff.mp h
  cases hk : defaultParams.kindOf (opcodeOf w) with
  | none =>
    obtain rfl : e = .badOpcode := by
      rw [decodeVariant_eq_badOpcode_iff.mpr hk] at he
      exact (Except.error.inj he).symm
    rw [decoderPort, decoderPortWith_of_none hk]
    exact ⟨rfl, rfl⟩
  | some k =>
    rw [decoderPort, decoderPortWith_of_error hk he]
    exact ⟨rfl, rfl⟩

/-- The code on the port tells the reasons and success apart (R501). -/
theorem failReason_iff (w : InstrWord) :
    ((decoderPort w).failReason = 0 ↔ ∃ i, decode w = .some i) ∧
    (∀ e : FailReason, (decoderPort w).failReason = e.code ↔ decode w = .none e) ∧
    ((decoderPort w).valid = true ↔ (decoderPort w).failReason = 0) := by
  cases hd : decode w with
  | some i =>
    obtain ⟨hvalid, hreason⟩ := decoderPort_of_some hd
    rw [hvalid, hreason]
    exact ⟨by simp, fun e => by cases e <;> simp [FailReason.code], by simp⟩
  | none r =>
    obtain ⟨hvalid, hreason⟩ := decoderPort_of_none hd
    rw [hvalid, hreason]
    exact ⟨by cases r <;> simp [FailReason.code], fun e => by cases r <;> cases e <;> simp [FailReason.code],
      by cases r <;> simp [FailReason.code]⟩

/-- Settles O6: the reason follows from the kind that the opcode selects and from the table of its sub-codes. -/
theorem failureReasons : Obligations.FailureReasons := by
  intro w
  obtain ⟨hsuccess, hcode, hvalid⟩ := failReason_iff w
  exact ⟨decode_eq_badOpcode_iff w, decode_eq_badSubcode_iff w, decode_eq_badIntHighByte_iff w, hsuccess,
    hcode .badOpcode, hcode .badSubcode, hcode .badIntHighByte, hvalid⟩

/-- Settles O11: each word is decoded. -/
theorem specWordsDecode : Obligations.SpecWordsDecode := by
  unfold Obligations.SpecWordsDecode
  decide

end Sys2Proof

/-! PROOF. Proofs/DecoderPortOutputs: every output of the decoder port (R142). The format outputs depend on the format of
the opcode alone; the sub-code outputs are those of the head that the word decodes to. -/
namespace Sys2Proof

/-! ### The format outputs -/

/-- The format outputs of a port: the fields of a record, and an immediate raw, zero-extended and sign-extended
(R109, R142). -/
def DecoderPort.HasFields (port : DecoderPort) (w : InstrWord) (n : Nat) (fmt : Format) (rde rs1 rs2 func : Nibble) : Prop :=
  port.fmt = some fmt ∧ port.rde = some rde ∧ port.rs1 = some rs1 ∧ port.rs2 = some rs2 ∧ port.func = some func ∧
  port.imm = some ((w.extractLsb' 8 n).setWidth 20) ∧ port.uimm = some ((w.extractLsb' 8 n).setWidth 64) ∧
  port.simm = some ((w.extractLsb' 8 n).signExtend 64)

/-- The immediate of the port, zero-extended: that of the format (R109). -/
theorem uimm_setWidth {n : Nat} (h : n ≤ 20) (imm : BitVec n) : uimm (imm.setWidth 20) = imm.setWidth 64 :=
  BitVec.setWidth_setWidth (by omega)

/-- The immediate of the port, sign-extended from the format's width: that of the format (R109). -/
theorem sext_uimm_setWidth {n : Nat} (h1 : 1 ≤ n) (h2 : n ≤ 20) (imm : BitVec n) :
    sext n (uimm (imm.setWidth 20)) = imm.signExtend 64 := by
  rw [uimm_setWidth h2, ← simm_eq_signExtend h1 (by omega), simm]

section
variable (w : InstrWord) (base : DecoderPort)

/-- The extended immediates of the port under a format with an immediate of n bits (R109). -/
theorem port_immediates {n : Nat} (h1 : 1 ≤ n) (h2 : n ≤ 20) :
    some (uimm ((w.extractLsb' 8 n).setWidth 20)) = some ((w.extractLsb' 8 n).setWidth 64) ∧
    some (sext n (uimm ((w.extractLsb' 8 n).setWidth 20))) = some ((w.extractLsb' 8 n).signExtend 64) :=
  ⟨congrArg some (uimm_setWidth h2 _), congrArg some (sext_uimm_setWidth h1 h2 _)⟩

theorem portFields_e_hasFields : (portFields .e w base).HasFields w 8 .e (w.extractLsb' 28 4) (w.extractLsb' 24 4)
    (w.extractLsb' 20 4) (w.extractLsb' 16 4) :=
  ⟨rfl, rfl, rfl, rfl, rfl, rfl, port_immediates w (by decide) (by decide)⟩

theorem portFields_r_hasFields : (portFields .r w base).HasFields w 12 .r (w.extractLsb' 28 4) (w.extractLsb' 24 4)
    (w.extractLsb' 20 4) 0 :=
  ⟨rfl, rfl, rfl, rfl, rfl, rfl, port_immediates w (by decide) (by decide)⟩

theorem portFields_m_hasFields : (portFields .m w base).HasFields w 16 .m (w.extractLsb' 28 4) (w.extractLsb' 24 4) 0 0 :=
  ⟨rfl, rfl, rfl, rfl, rfl, rfl, port_immediates w (by decide) (by decide)⟩

theorem portFields_f_hasFields : (portFields .f w base).HasFields w 16 .f (w.extractLsb' 28 4) 0 0 (w.extractLsb' 24 4) :=
  ⟨rfl, rfl, rfl, rfl, rfl, rfl, port_immediates w (by decide) (by decide)⟩

theorem portFields_b_hasFields : (portFields .b w base).HasFields w 20 .b 0 0 0 (w.extractLsb' 28 4) := by
  have himm := port_immediates w (n := 20) (by decide) (by decide)
  rw [BitVec.setWidth_eq] at himm
  exact ⟨rfl, rfl, rfl, rfl, rfl, congrArg some (BitVec.setWidth_eq _).symm, himm⟩

end

/-- The outputs that say what a variant is leave the format outputs as they are (R142). -/
theorem portVariant_hasFields_iff (v : Variant) (base : DecoderPort) (w : InstrWord) (n : Nat) (fmt : Format)
    (rde rs1 rs2 func : Nibble) :
    (portVariant v base).HasFields w n fmt rde rs1 rs2 func ↔ base.HasFields w n fmt rde rs1 rs2 func := by
  obtain ⟨h, o⟩ := v
  cases h with
  | sysctl op => cases op <;> exact Iff.rfl
  | single | branch | loadImm | cmpi | float | fcnv => exact Iff.rfl

/-- Whether or not its sub-code is valid, a word of an assigned opcode has the outputs of the opcode's format (R142). -/
theorem decoderPort_hasFields_of_format {w : InstrWord} {fmt : Format} {n : Nat} {rde rs1 rs2 func : Nibble}
    (hfmt : (defaultKindOf (opcodeOf w)).map defaultParams.formatOf = some fmt)
    (hfields : ∀ base, (portFields fmt w base).HasFields w n fmt rde rs1 rs2 func) :
    (decoderPort w).HasFields w n fmt rde rs1 rs2 func := by
  obtain ⟨k, hk, rfl⟩ := Option.map_eq_some_iff.mp hfmt
  cases hd : decodeVariant defaultParams w with
  | ok v =>
    rw [decoderPort, decoderPortWith_of_ok hk hd, portVariant_hasFields_iff]
    exact hfields _
  | error e =>
    rw [decoderPort, decoderPortWith_of_error hk hd]
    exact hfields _

/-- The format of each opcode range (R111, R115, R120). -/
theorem format_of_opcode (op : BitVec 8) :
    ((0x11 ≤ op.toNat ∧ op.toNat ≤ 0x1B) ∨ (0x40 ≤ op.toNat ∧ op.toNat ≤ 0x4F) →
      (defaultKindOf op).map defaultParams.formatOf = some .e) ∧
    (0x20 ≤ op.toNat ∧ op.toNat ≤ 0x3F ∧ op.toNat % 2 = 0 → (defaultKindOf op).map defaultParams.formatOf = some .r) ∧
    ((0x20 ≤ op.toNat ∧ op.toNat ≤ 0x3F ∧ op.toNat % 2 = 1) ∨ (0x02 ≤ op.toNat ∧ op.toNat ≤ 0x09) ∨ op.toNat = 0x0B ∨
      op.toNat = 0x0C ∨ op.toNat = 0x1E → (defaultKindOf op).map defaultParams.formatOf = some .m) ∧
    (op.toNat = 0x01 ∨ op.toNat = 0x10 ∨ op.toNat = 0x1F → (defaultKindOf op).map defaultParams.formatOf = some .f) ∧
    (op.toNat = 0x0A ∨ op.toNat = 0x0D ∨ op.toNat = 0x0E → (defaultKindOf op).map defaultParams.formatOf = some .b) := by
  revert op
  decide

/-! ### The sub-code outputs -/

/-- The sub-code outputs of a port, as the statement lists them: each where the opcode has that sub-code (R142). -/
def DecoderPort.HasSubcodes (port : DecoderPort) (w : InstrWord) : Prop :=
  port.cond = (if (opcodeOf w).toNat = 0x0A then BranchCond.ofCode? (w.extractLsb' 28 4) else none) ∧
  port.litype = (if (opcodeOf w).toNat = 0x10 then LiType.ofCode? (w.extractLsb' 24 4) else none) ∧
  port.prec = (if 0x40 ≤ (opcodeOf w).toNat ∧ (opcodeOf w).toNat ≤ 0x4F ∧ (opcodeOf w).toNat ≠ 0x4E then
    FloatPrec.ofCode? (w.extractLsb' 16 4) else none) ∧
  port.precFrom = (if (opcodeOf w).toNat = 0x4E then (fcnvSplit (w.extractLsb' 16 4)).map Prod.fst else none) ∧
  port.precTo = (if (opcodeOf w).toNat = 0x4E then (fcnvSplit (w.extractLsb' 16 4)).map Prod.snd else none) ∧
  port.order = (if (opcodeOf w).toNat = 0x1F then CompareOrder.ofCode? (w.extractLsb' 24 4) else none) ∧
  port.intr = if (opcodeOf w).toNat = 0x01 ∧ w.extractLsb' 24 4 = 0 ∧ w.extractLsb' 16 8 = 0 then
    some (w.extractLsb' 8 8) else none

/-- The port of a word whose sub-code has a head (R110, R142). -/
theorem decoderPort_of_readHead_ok {w : InstrWord} {k : OpKind} {h : Head} (hop : opcodeOf w = k.defaultOpcode)
    (hr : readHead defaultParams k (readFields (defaultParams.formatOf k) w) = .ok h) :
    decoderPort w = portVariant ⟨h, (readFields (defaultParams.formatOf k) w).mask h.defaultUsed⟩
      (portFields (defaultParams.formatOf k) w { valid := true, failReason := 0 }) := by
  have hk : defaultParams.kindOf (opcodeOf w) = some k := defaultKindOf_eq_some_iff.mpr hop
  refine decoderPortWith_of_ok hk ?_
  simp only [decodeVariant, hk, hr]
  rfl

/-- The port of a word whose sub-code has no head (R110, R142). -/
theorem decoderPort_of_readHead_error {w : InstrWord} {k : OpKind} {e : FailReason} (hop : opcodeOf w = k.defaultOpcode)
    (hr : readHead defaultParams k (readFields (defaultParams.formatOf k) w) = .error e) :
    decoderPort w = portFields (defaultParams.formatOf k) w { valid := false, failReason := e.code } := by
  have hk : defaultParams.kindOf (opcodeOf w) = some k := defaultKindOf_eq_some_iff.mpr hop
  exact decoderPortWith_of_error hk (decodeVariant_eq_error_iff.mpr (.inr ⟨k, hk, hr⟩))

/-- An opcode that selects nothing, or an operation without a sub-code, is none of those with sub-codes (R111, R120). -/
theorem opcode_without_subcode (op : BitVec 8)
    (h : (match defaultKindOf op with | none | some (.single _) => true | _ => false) = true) :
    op.toNat ≠ 0x01 ∧ op.toNat ≠ 0x0A ∧ op.toNat ≠ 0x10 ∧ op.toNat ≠ 0x1F ∧ op.toNat ≠ 0x4E ∧
    ¬ (0x40 ≤ op.toNat ∧ op.toNat ≤ 0x4F ∧ op.toNat ≠ 0x4E) := by
  revert op
  decide

/-- A port without sub-codes has those of an opcode without sub-codes. -/
theorem hasSubcodes_of_none {w : InstrWord} {port : DecoderPort}
    (hop : (match defaultKindOf (opcodeOf w) with | none | some (.single _) => true | _ => false) = true)
    (hport : port.cond = none ∧ port.litype = none ∧ port.prec = none ∧ port.precFrom = none ∧ port.precTo = none ∧
      port.order = none ∧ port.intr = none) : port.HasSubcodes w := by
  obtain ⟨htrap, hbranch, hli, hcmpi, hcast, hfloat⟩ := opcode_without_subcode _ hop
  simp only [DecoderPort.HasSubcodes, htrap, hbranch, hli, hcmpi, hcast, hfloat, false_and, if_false]
  exact hport

section
variable {P : BlockParams} {r : Fields}

theorem readHead_branch {c : BranchCond} (h : P.cond.ofCode? r.func = some c) : readHead P .branch r = .ok (.branch c) := by
  simp only [readHead, h]

theorem readHead_loadImm {t : LiType} (h : P.liType.ofCode? r.func = some t) : readHead P .loadImm r = .ok (.loadImm t) := by
  simp only [readHead, h]

theorem readHead_cmpi {o : CompareOrder} (h : P.order.ofCode? r.func = some o) : readHead P .cmpi r = .ok (.cmpi o) := by
  simp only [readHead, h]

theorem readHead_float {p : FloatPrec} (op : PrecOp) (h : P.prec.ofCode? r.func = some p) :
    readHead P (.float op) r = .ok (.float op p) := by
  simp only [readHead, h]

theorem readHead_fcnv {p : FloatPrec × FloatPrec} (h : P.fcnv.ofCode? r.func = some p) :
    readHead P .fcnv r = .ok (.fcnv p.1 p.2) := by
  simp only [readHead, h]

end

/-- Only the condition is present in a branch (R122). -/
theorem hasSubcodes_of_branch {w : InstrWord} (hop : opcodeOf w = 0x0A) : (decoderPort w).HasSubcodes w := by
  simp only [DecoderPort.HasSubcodes, hop]
  cases hc : BranchCond.ofCode? (w.extractLsb' 28 4) with
  | none =>
    rw [decoderPort_of_readHead_error (k := .branch) hop (readHead_eq_badSubcode_iff.mpr hc)]
    simp [portFields]
  | some c =>
    rw [decoderPort_of_readHead_ok (k := .branch) hop (readHead_branch hc)]
    simp [portVariant, portFields]

/-- Only the type is present in a load-immediate (R123). -/
theorem hasSubcodes_of_loadImm {w : InstrWord} (hop : opcodeOf w = 0x10) : (decoderPort w).HasSubcodes w := by
  simp only [DecoderPort.HasSubcodes, hop]
  cases hc : LiType.ofCode? (w.extractLsb' 24 4) with
  | none =>
    rw [decoderPort_of_readHead_error (k := .loadImm) hop (readHead_eq_badSubcode_iff.mpr hc)]
    simp [portFields]
  | some c =>
    rw [decoderPort_of_readHead_ok (k := .loadImm) hop (readHead_loadImm hc)]
    simp [portVariant, portFields]

/-- Only the order is present in `cmpi` (R125). -/
theorem hasSubcodes_of_cmpi {w : InstrWord} (hop : opcodeOf w = 0x1F) : (decoderPort w).HasSubcodes w := by
  simp only [DecoderPort.HasSubcodes, hop]
  cases hc : CompareOrder.ofCode? (w.extractLsb' 24 4) with
  | none =>
    rw [decoderPort_of_readHead_error (k := .cmpi) hop (readHead_eq_badSubcode_iff.mpr hc)]
    simp [portFields]
  | some c =>
    rw [decoderPort_of_readHead_ok (k := .cmpi) hop (readHead_cmpi hc)]
    simp [portVariant, portFields]

/-- Only the two precisions are present in a cast (R126). -/
theorem hasSubcodes_of_fcnv {w : InstrWord} (hop : opcodeOf w = 0x4E) : (decoderPort w).HasSubcodes w := by
  simp only [DecoderPort.HasSubcodes, hop]
  cases hc : fcnvSplit (w.extractLsb' 16 4) with
  | none =>
    rw [decoderPort_of_readHead_error (k := .fcnv) hop (readHead_eq_badSubcode_iff.mpr hc)]
    simp [portFields]
  | some c =>
    rw [decoderPort_of_readHead_ok (k := .fcnv) hop (readHead_fcnv hc)]
    simp [portVariant, portFields]

/-- Only the precision is present in a float operation (R124). -/
theorem hasSubcodes_of_float {w : InstrWord} {op : PrecOp} (hop : opcodeOf w = (OpKind.float op).defaultOpcode) :
    (decoderPort w).HasSubcodes w := by
  obtain ⟨hlow, hhigh, hcast⟩ := (exists_float_opcode_iff _).mp ⟨op, hop⟩
  have hcast' : (opcodeOf w).toNat ≠ 0x4E := fun h => hcast (BitVec.eq_of_toNat_eq h)
  have hother : (opcodeOf w).toNat ≠ 0x01 ∧ (opcodeOf w).toNat ≠ 0x0A ∧ (opcodeOf w).toNat ≠ 0x10 ∧
      (opcodeOf w).toNat ≠ 0x1F := by omega
  obtain ⟨htrap, hbranch, hli, hcmpi⟩ := hother
  have hformat : defaultParams.formatOf (.float op) = .e := rfl
  simp only [DecoderPort.HasSubcodes, htrap, hbranch, hli, hcmpi, hcast', hlow, hhigh, ne_eq, not_false_eq_true, and_self,
    false_and, if_true, if_false]
  cases hc : FloatPrec.ofCode? (w.extractLsb' 16 4) with
  | none =>
    rw [decoderPort_of_readHead_error hop (readHead_eq_badSubcode_iff.mpr hc)]
    simp [portFields]
  | some p =>
    rw [decoderPort_of_readHead_ok hop (readHead_float op hc)]
    simp [portVariant, portFields]

/-- The sub-code outputs of system control: at most the interrupt identifier (R118). -/
theorem hasSubcodes_sysctl_iff {w : InstrWord} {port : DecoderPort} (hop : opcodeOf w = 0x01) : port.HasSubcodes w ↔
    (port.cond = none ∧ port.litype = none ∧ port.prec = none ∧ port.precFrom = none ∧ port.precTo = none ∧
      port.order = none) ∧
    port.intr = if w.extractLsb' 24 4 = 0 ∧ w.extractLsb' 16 8 = 0 then some (w.extractLsb' 8 8) else none := by
  simp [DecoderPort.HasSubcodes, hop, and_assoc]

/-- The interrupt identifier is present in `int` alone (R118, R121). -/
theorem hasSubcodes_of_sysctl {w : InstrWord} (hop : opcodeOf w = 0x01) : (decoderPort w).HasSubcodes w := by
  have hk : defaultParams.kindOf (opcodeOf w) = some .sysctl := defaultKindOf_eq_some_iff.mpr hop
  rw [hasSubcodes_sysctl_iff hop]
  cases hr : readHead defaultParams .sysctl (readFields .f w) with
  | error e =>
    have hnot : ¬ (w.extractLsb' 24 4 = 0 ∧ w.extractLsb' 16 8 = 0) := by
      rintro ⟨hfunc, hhigh⟩
      have hd := decode_trap hop hfunc
      rw [if_pos hhigh] at hd
      obtain ⟨v, hv, -⟩ := decodeWith_eq_some_iff.mp hd
      have he := decodeVariant_eq_error_iff.mpr (.inr ⟨.sysctl, hk, hr⟩)
      rw [he] at hv
      contradiction
    rw [decoderPort_of_readHead_error (k := .sysctl) hop hr, if_neg hnot]
    exact ⟨⟨rfl, rfl, rfl, rfl, rfl, rfl⟩, rfl⟩
  | ok h =>
    obtain ⟨hkind, hbits⟩ := (readHead_eq_ok_iff defaultParams_lawful).mp hr
    rw [decoderPort_of_readHead_ok (k := .sysctl) hop hr]
    cases h with
    | sysctl op =>
      cases op with
      | int =>
        obtain ⟨hfunc, hhigh⟩ := (mask_int_iff _ _).mp hbits
        rw [imm16_readFields_f, extractLsb'_extractLsb' w (by decide)] at hhigh
        have hoperand := Instr.int.inj (toInstr_int_mask (readFields .f w))
        rw [imm8_readFields_f] at hoperand
        rw [if_pos ⟨hfunc, hhigh⟩]
        exact ⟨⟨rfl, rfl, rfl, rfl, rfl, rfl⟩, congrArg some hoperand⟩
      | iret | ires | usr =>
        have hfunc : w.extractLsb' 24 4 = _ := (mask_func_iff _ _).mp hbits
        rw [if_neg fun h => absurd (hfunc.symm.trans h.1) (by decide)]
        exact ⟨⟨rfl, rfl, rfl, rfl, rfl, rfl⟩, rfl⟩
    | single | branch | loadImm | cmpi | float | fcnv => contradiction

/-- Every word has the sub-code outputs of its opcode. -/
theorem decoderPort_hasSubcodes (w : InstrWord) : (decoderPort w).HasSubcodes w := by
  cases hk : defaultKindOf (opcodeOf w) with
  | none =>
    have hport : decoderPort w = _ := decoderPortWith_of_none hk
    rw [hport]
    exact hasSubcodes_of_none (by rw [hk]) (by simp)
  | some k =>
    have hop := defaultKindOf_eq_some_iff.mp hk
    cases k with
    | single m =>
      rw [decoderPort_of_readHead_ok (k := .single m) (h := .single m) hop rfl]
      exact hasSubcodes_of_none (by rw [hk]) (by simp [portVariant, portFields])
    | sysctl => exact hasSubcodes_of_sysctl hop
    | branch => exact hasSubcodes_of_branch hop
    | loadImm => exact hasSubcodes_of_loadImm hop
    | cmpi => exact hasSubcodes_of_cmpi hop
    | float op => exact hasSubcodes_of_float hop
    | fcnv => exact hasSubcodes_of_fcnv hop

/-! ### The mnemonic, and the port of a failure -/

theorem portVariant_mnemonic (v : Variant) (base : DecoderPort) :
    (portVariant v base).mnemonic = some v.head.mnemonic := by
  obtain ⟨h, o⟩ := v
  cases h with
  | sysctl op => cases op <;> rfl
  | single | branch | loadImm | cmpi | float | fcnv => rfl

/-- The mnemonic of a word that decodes is its instruction's (R142). -/
theorem decoderPort_mnemonic_of_some {w : InstrWord} {i : Instr} (h : decode w = .some i) :
    (decoderPort w).mnemonic = some i.mnemonic := by
  obtain ⟨v, hv, rfl⟩ := decodeWith_eq_some_iff.mp h
  obtain ⟨k, hk⟩ := exists_kind_of_ne_badOpcode (P := defaultParams) (w := w) (by simp [hv])
  rw [decoderPort, decoderPortWith_of_ok hk hv, Instr.mnemonic, Head.head_toInstr]
  exact portVariant_mnemonic ..

/-- A word that fails has no mnemonic (R142). -/
theorem decoderPort_mnemonic_of_none {w : InstrWord} {e : FailReason} (h : decode w = .none e) :
    (decoderPort w).mnemonic = none := by
  cases hk : defaultParams.kindOf (opcodeOf w) with
  | none => rw [decoderPort, decoderPortWith_of_none hk]
  | some k => rw [decoderPort, decoderPortWith_of_error hk (decodeWith_eq_none_iff.mp h), portFields]

/-- Settles O59: the format of the opcode gives the fields, the head of the word gives the sub-codes. -/
theorem decoderPortOutputs : Obligations.DecoderPortOutputs := by
  intro w
  obtain ⟨he, hr, hm, hf, hb⟩ := format_of_opcode (opcodeOf w)
  refine ⟨fun h => decoderPort_hasFields_of_format (he h) (portFields_e_hasFields w),
    fun h => decoderPort_hasFields_of_format (hr h) (portFields_r_hasFields w),
    fun h => decoderPort_hasFields_of_format (hm h) (portFields_m_hasFields w),
    fun h => decoderPort_hasFields_of_format (hf h) (portFields_f_hasFields w),
    fun h => decoderPort_hasFields_of_format (hb h) (portFields_b_hasFields w), fun h => ?_, fun e h => ?_,
    fun i h => ?_, decoderPort_hasSubcodes w⟩
  · exact decoderPortWith_of_none (decodeVariant_eq_badOpcode_iff.mp (decodeWith_eq_none_iff.mp h))
  · obtain ⟨hvalid, hreason⟩ := decoderPort_of_none h
    exact ⟨hvalid, hreason, decoderPort_mnemonic_of_none h⟩
  · obtain ⟨hvalid, hreason⟩ := decoderPort_of_some h
    exact ⟨hvalid, hreason, decoderPort_mnemonic_of_some h⟩

end Sys2Proof

/-! PROOF. Proofs/SubtractAndShifts: subtraction, the shifts and the bit test of the arithmetic helper layer (R434, R441 to
R443). The borrow step can leave the signed range at its lower end only; below 64 each shift is its power of 2. -/
namespace Sys2Proof.Machine

/-! ### Subtraction -/

/-- The wrapped signed difference is the signed value of the word's difference (R434). -/
theorem wrapSigned64_toInt_sub (a b : Word) : wrapSigned64 (a.toInt - b.toInt) = (a - b).toInt :=
  BitVec.toInt_sub.symm

/-- The borrow step overflows the signed range at its lower end only: a borrow is never negative (R434). -/
theorem outsideSigned64_sub_borrow (r : Word) (c : Bool) :
    outsideSigned64 (r.toInt - c.toNat) = true ↔ r.toInt - c.toNat < -2 ^ 63 := by
  rw [outsideSigned64_iff]
  have hhigh : r.toInt < 2 ^ 63 := r.toInt_lt
  omega

/-- The result of `sub` (R434). -/
theorem helperSub_result_toNat (a b : Word) (c : Bool) :
    (helperSub a b c).result.toNat = (2 ^ 65 + a.toNat - b.toNat - c.toNat) % 2 ^ 64 := by
  have hb := b.isLt
  have hc := c.toNat_le
  have hborrow : (BitVec.ofNat 64 c.toNat).toNat = c.toNat := Nat.mod_eq_of_lt (by omega)
  simp only [helperSub, carryNat_eq_toNat, BitVec.toNat_sub, hborrow]
  omega

/-- The unsigned flag of `sub`: a borrow of either step (R434; log 19). -/
theorem helperSub_unsignedOverflow_iff (a b : Word) (c : Bool) :
    (helperSub a b c).unsignedOverflow = true ↔ a.toNat < b.toNat + c.toNat := by
  have ha := a.isLt
  have hb := b.isLt
  have hc := c.toNat_le
  simp only [helperSub, carryNat_eq_toNat, BitVec.toNat_sub, Bool.or_eq_true, decide_eq_true_eq]
  omega

/-- The signed flag of `sub`: its two steps on integers (R434; log 19). -/
theorem helperSub_signedOverflow_iff (a b : Word) (c : Bool) :
    (helperSub a b c).signedOverflow = true ↔
      a.toInt - b.toInt < -2 ^ 63 ∨ 2 ^ 63 ≤ a.toInt - b.toInt ∨ (a - b).toInt - c.toNat < -2 ^ 63 := by
  simp only [helperSub, carryNat_eq_toNat, wrapSigned64_toInt_sub, Bool.or_eq_true]
  rw [outsideSigned64_sub_borrow, outsideSigned64_iff, or_assoc]

/-- Settles O13: the borrow as a number, and the wrapped difference as the word's difference. -/
theorem subHelper : Obligations.SubHelper := fun a b c =>
  ⟨helperSub_result_toNat a b c, helperSub_unsignedOverflow_iff a b c, helperSub_signedOverflow_iff a b c⟩

/-! ### Shifts and the bit test -/

theorem helperShl_toNat {b : Word} (hb : b.toNat < 64) (a : Word) :
    (helperShl a b).toNat = a.toNat * 2 ^ b.toNat % 2 ^ 64 := by
  rw [helperShl, if_pos hb, BitVec.toNat_shiftLeft, Nat.shiftLeft_eq]

theorem helperShr_toNat {b : Word} (hb : b.toNat < 64) (a : Word) : (helperShr a b).toNat = a.toNat / 2 ^ b.toNat := by
  rw [helperShr, if_pos hb, BitVec.toNat_ushiftRight, Nat.shiftRight_eq_div_pow]

theorem helperAsr_toInt {b : Word} (hb : b.toNat < 64) (a : Word) : (helperAsr a b).toInt = a.toInt / 2 ^ b.toNat := by
  rw [helperAsr, if_pos hb, BitVec.toInt_sshiftRight, Int.shiftRight_eq_div_pow, Nat.cast_pow, Nat.cast_ofNat]

theorem helperBit_toNat {b : Word} (hb : b.toNat < 64) (a : Word) :
    (helperBit a b).toNat = a.toNat / 2 ^ b.toNat % 2 := by
  rw [helperBit, if_pos hb, BitVec.getLsbD, Nat.testBit_eq_decide_div_mod_eq]
  by_cases hbit : a.toNat / 2 ^ b.toNat % 2 = 1
  · simp [hbit]
  · have hzero : a.toNat / 2 ^ b.toNat % 2 = 0 := by omega
    simp [hzero]

/-- Settles O17: below 64 by the value of each shift, at 64 and above by definition. -/
theorem shiftAndBitHelpers : Obligations.ShiftAndBitHelpers := by
  refine fun a b => ⟨fun hb => ⟨helperShl_toNat hb a, helperShr_toNat hb a, helperAsr_toInt hb a, helperBit_toNat hb a⟩,
    fun hb => ?_⟩
  have hover : ¬ b.toNat < 64 := by omega
  exact ⟨if_neg hover, if_neg hover, if_neg hover, if_neg hover⟩

end Sys2Proof.Machine

/-! PROOF. Proofs/StepShapes: everything that executing an instruction can do, said once (`ExecShape`), and from it what
every step keeps: the form of memory, the bytes, the flags, the mode, what has gone out of the machine. -/
namespace Sys2Proof.Machine

/-! ### Immediate operands -/

/-- An extended 16-bit immediate is the value that the statements compare with (R109). -/
theorem extendImm_eq_immValue (e : ImmExt) (imm : BitVec 16) : extendImm e imm = immValue e imm := by
  cases e with
  | zero => rfl
  | sign => exact simm_eq_signExtend (by decide) (by decide) imm

@[simp] theorem aluImm_eq_aluOperand (op : AluOp) (imm : BitVec 16) : aluImm op imm = aluOperand op imm :=
  extendImm_eq_immValue _ imm

/-- `idiv` answers absent exactly where the signed divide fails (R436). -/
theorem helperIdiv_eq_none_iff (a b : Word) : helperIdiv a b = none ↔ SignedDivideFails a b := by
  simp only [helperIdiv, ← signedDivFails_iff, ite_eq_left_iff, reduceCtorEq, imp_false, not_not]

/-! ### The shapes -/

/-- What the state after an instruction can be: only registers and pc change, or flags, or the bytes of one datum beside
them, or the machine speaks to the interrupt controller or to a port. -/
inductive ExecShape (i : Instr) (s : State) : State → Prop
  /-- registers and pc -/
  | moves (regs : Vector Word 16) (pc : Word) : ExecShape i s { s with regs := regs, pc := pc }
  /-- the flags of a compare -/
  | compares (flags : Flags) (pc : Word) (h : i.setsFlags = true) : ExecShape i s { s with flags := flags, pc := pc }
  /-- a datum of a store, a push or a call, beside registers and pc -/
  | stores (a : Word) (n : Nat) (v : Word) (regs : Vector Word 16) (pc : Word) (h : i.storesToMemory = true) :
      ExecShape i s { s with regs := regs, pc := pc, mem := Memory.writeDatum s.mem a n v }
  /-- an interrupt of `int` or of a failing division (logs 14, 18) -/
  | traps (id : IntId) (h : (∃ id, i = .int id) ∨ i.DivisionFails s) : ExecShape i s (s.takeTrap id)
  /-- `iret` (log 15) -/
  | returns (h : i = .iret) : ExecShape i s s.returnFromTrap
  /-- `ires` (log 16) -/
  | resolves (h : i = .ires) : ExecShape i s (s.sendInt .resolved).advance
  /-- `usr` (log 17) -/
  | entersUser (rde : RegId) (h : i = .usr rde) : ExecShape i s ((s.setMode .user).setPc (s.reg rde))
  /-- a port output (log 13) -/
  | outputs (p : Port) (v : Word) : ExecShape i s (s.portWrite p v).advance
  /-- a port input (log 13) -/
  | inputs (rde : RegId) (p : Port) : ExecShape i s (s.inputTo rde p)

/-- A branch moves pc (R236). -/
theorem ExecShape.branchIf (i : Instr) (s : State) (c : BranchCond) (imm : BitVec 20) :
    ExecShape i s (s.branchIf c imm) := by
  rw [State.branchIf_eq]
  exact .moves _ _

/-- A division writes a register, or raises an interrupt where its helper fails (R444). -/
theorem ExecShape.divTo {i : Instr} {s : State} {op : DivOp} {a b : Word} {r : Option Word} (rde : RegId)
    (h : r = none → i.DivisionFails s) : ExecShape i s (s.divTo op a b r rde) := by
  rcases s.divTo_cases op a b r rde with ⟨v, -, e⟩ | ⟨v, -, -, e⟩ | ⟨id, hr, -, e⟩ <;> rw [e]
  · exact .moves _ _
  · exact .moves _ _
  · exact .traps id (.inr (h hr))

/-- Every instruction completes, and its effect is one of the shapes. -/
theorem exec_shape (i : Instr) (s : State) : ∃ t, exec i s = .next t ∧ ExecShape i s t := by
  cases i with
  | int id => exact ⟨_, rfl, .traps id (.inl ⟨id, rfl⟩)⟩
  | iret => exact ⟨_, rfl, .returns rfl⟩
  | ires => exact ⟨_, rfl, .resolves rfl⟩
  | usr rde => exact ⟨_, rfl, .entersUser rde rfl⟩
  | outr | outi => exact ⟨_, rfl, .outputs _ _⟩
  | inr | ini => exact ⟨_, rfl, .inputs _ _⟩
  | bra | beq | bez | blt | ble | bltu | bleu | bne | bnz | bge | bgt | bgeu | bgtu =>
    exact ⟨_, rfl, .branchIf _ _ _ _⟩
  | cmpr | cmpi | fcmpF16 | fcmpF32 | fcmpF64 => exact ⟨_, rfl, .compares _ _ rfl⟩
  | jal | push | enter | sw | sh | sq | sb => exact ⟨_, rfl, .stores _ _ _ _ _ rfl⟩
  | idivr => exact ⟨_, rfl, .divTo _ (helperIdiv_eq_none_iff _ _).mp⟩
  | remr => exact ⟨_, rfl, .divTo _ (helperRem_eq_none_iff _ _).mp⟩
  | modr => exact ⟨_, rfl, .divTo _ (helperMod_eq_none_iff _ _).mp⟩
  | udivr => exact ⟨_, rfl, .divTo _ (helperUdiv_eq_none_iff _ _).mp⟩
  | idivi =>
    refine ⟨_, rfl, .divTo _ fun h => ?_⟩
    rw [aluImm_eq_aluOperand] at h
    exact (helperIdiv_eq_none_iff _ _).mp h
  | remi =>
    refine ⟨_, rfl, .divTo _ fun h => ?_⟩
    rw [aluImm_eq_aluOperand] at h
    exact (helperRem_eq_none_iff _ _).mp h
  | modi =>
    refine ⟨_, rfl, .divTo _ fun h => ?_⟩
    rw [aluImm_eq_aluOperand] at h
    exact (helperMod_eq_none_iff _ _).mp h
  | udivi =>
    refine ⟨_, rfl, .divTo _ fun h => ?_⟩
    rw [aluImm_eq_aluOperand] at h
    exact (helperUdiv_eq_none_iff _ _).mp h
  | _ => exact ⟨_, rfl, .moves _ _⟩

/-- The state after an instruction has one of the shapes. -/
theorem shape_of_exec {i : Instr} {s t : State} (h : exec i s = .next t) : ExecShape i s t := by
  obtain ⟨u, hu, hshape⟩ := exec_shape i s
  rw [hu] at h
  exact Host.Outcome.next.inj h ▸ hshape

/-! ### One step -/

/-- Settles O18: a step on a word that decodes is the meaning of its instruction. -/
theorem stepRunsDecodedInstruction : Obligations.StepRunsDecodedInstruction := by
  intro s i h
  rw [step, h]

/-- A step on a word that does not decode is a fault (R500; log 29). -/
theorem step_of_decode_none {s : State} {r : FailReason} (h : decode s.fetch = .none r) :
    step s = .fault (faultOf r) := by
  rw [step, h]

/-- A step that answers a next state ran an instruction. -/
theorem exists_exec_of_step {s t : State} (h : step s = .next t) : ∃ i, decode s.fetch = .some i ∧ exec i s = .next t := by
  cases hd : decode s.fetch with
  | some i => exact ⟨i, rfl, stepRunsDecodedInstruction s i hd ▸ h⟩
  | none r =>
    rw [step_of_decode_none hd] at h
    contradiction

/-- Settles O19: every instruction completes, so a step faults or answers as its word decodes. -/
theorem stepOutcomes : Obligations.StepOutcomes := by
  intro s
  cases hd : decode s.fetch with
  | some i =>
    obtain ⟨t, ht, -⟩ := exec_shape i s
    have hstep := (stepRunsDecodedInstruction s i hd).trans ht
    rw [hstep]
    simp
  | none r =>
    rw [step_of_decode_none hd]
    simp [eq_comm]

/-- The word placed at pc is the word fetched there, in memory of the canonical form (R50). -/
theorem fetch_placeWord {s : State} (h : s.memoryOk) (w : InstrWord) : (s.placeWord w).fetch = w := by
  have byte : ∀ (k : Nat) (hk : k < 4), (s.placeWord w).readByte (s.pc + BitVec.ofNat 64 k) = byteOfWord k w := by
    intro k hk
    rw [State.readByte, State.placeWord_mem, Memory.read_writeBytes_same [byteOfWord 0 w, byteOfWord 1 w,
      byteOfWord 2 w, byteOfWord 3 w] s.mem h s.pc (by simp) k hk]
    match k, hk with
    | 0, _ | 1, _ | 2, _ | 3, _ => rfl
  have byte0 := byte 0 (by decide)
  rw [BitVec.add_zero] at byte0
  rw [State.fetch, State.placeWord_pc, byte0]
  exact (congr (congr (congrArg _ (byte 1 (by decide))) (byte 2 (by decide))) (byte 3 (by decide))).trans
    (wordOfBytes_byteOfWord w)

/-- Settles O20: the placed word is fetched, and it decodes to the instruction it encodes. -/
theorem runsAnEncodedInstruction : Obligations.RunsAnEncodedInstruction := by
  intro s i h
  refine ⟨stepRunsDecodedInstruction _ i ?_, fun b hb => Memory.read_writeBytes_ne _ _ _ _ hb⟩
  rw [fetch_placeWord h, decodeOfEncode i]

/-! ### What every step keeps -/

/-- Settles O21: only stores change memory, and writing a datum keeps the canonical form. -/
theorem stepKeepsMemoryForm : Obligations.StepKeepsMemoryForm := by
  intro s t hs hstep
  obtain ⟨i, -, hexec⟩ := exists_exec_of_step hstep
  cases shape_of_exec hexec with
  | stores a n v => exact Memory.writeDatum_wf hs a n v
  | moves | compares | traps | returns | resolves | entersUser | outputs | inputs => exact hs

/-- Settles O23: every shape but that of a store has the memory of before. -/
theorem onlyStoresChangeMemory : Obligations.OnlyStoresChangeMemory := by
  intro i s t hexec hi
  cases shape_of_exec hexec with
  | stores a n v regs pc h => exact absurd h (by simp [hi])
  | moves | compares | traps | returns | resolves | entersUser | outputs | inputs => exact fun _ => rfl

/-- Settles O24: every shape but that of a compare has the flags of before. -/
theorem onlyComparesChangeFlags : Obligations.OnlyComparesChangeFlags := by
  intro i s t hexec hi
  cases shape_of_exec hexec with
  | compares flags pc h => exact absurd h (by simp [hi])
  | moves | stores | traps | returns | resolves | entersUser | outputs | inputs => rfl

/-- Settles O25: the shapes that change the mode or speak to the interrupt controller are those of system control and of a
failing division. -/
theorem modeChanges : Obligations.ModeChanges := by
  intro i s t hexec
  refine ⟨fun hsys hdiv => ?_, ?_, ?_⟩
  · cases shape_of_exec hexec with
    | traps id h =>
      obtain ⟨id, rfl⟩ | h := h
      · contradiction
      · exact absurd h hdiv
    | returns h | resolves h | entersUser rde h => subst h; contradiction
    | moves | compares | stores | outputs | inputs => exact ⟨rfl, rfl⟩
  · rintro rfl
    obtain rfl := Host.Outcome.next.inj hexec
    rfl
  · rintro r rfl
    obtain rfl := Host.Outcome.next.inj hexec
    rfl

/-- Settles O26: a shape appends to the interrupt commands or to the port writes, or leaves them. -/
theorem historiesGrow : Obligations.HistoriesGrow := by
  intro s t hstep
  obtain ⟨i, -, hexec⟩ := exists_exec_of_step hstep
  cases shape_of_exec hexec with
  | traps | returns => exact ⟨List.prefix_append .., List.prefix_rfl, Nat.le_succ _⟩
  | resolves => exact ⟨List.prefix_append .., List.prefix_rfl, le_rfl⟩
  | outputs => exact ⟨List.prefix_rfl, List.prefix_append .., le_rfl⟩
  | inputs => exact ⟨List.prefix_rfl, List.prefix_rfl, Nat.le_succ _⟩
  | moves | compares | stores | entersUser => exact ⟨List.prefix_rfl, List.prefix_rfl, le_rfl⟩

/-- Settles O22: the state after reset is written out. -/
theorem resetState : Obligations.ResetState := by
  refine ⟨rfl, fun r => ?_, rfl, fun _ => rfl, rfl, rfl, rfl, rfl, rfl⟩
  simp [State.reg, State.reset]

end Sys2Proof.Machine

/-! PROOF. Proofs/InstructionEffects: the instructions that write one register, the flags or pc, and the interrupt and port
instructions. Each effect of `Safety` is proved once from the state that the instruction answers; the values come after. -/
namespace Sys2Proof.Machine

/-! ### Effects from the state that an instruction answers -/

/-- A register write leaves every other register (R40). -/
theorem sameRegsBut_setReg (s : State) (r : RegId) (v : Word) : SameRegsBut [r] s (s.setReg r v) :=
  fun q hq => State.reg_setReg_ne s r q v (by simpa using hq)

/-- An instruction that answers a register write and goes on writes that register and nothing else. -/
theorem writesReg_of_exec {i : Instr} {s : State} {rde : RegId} {v : Word}
    (h : exec i s = .next (s.setReg rde v).advance) : WritesReg i s rde v :=
  ⟨_, h, State.reg_setReg_same .., rfl, sameRegsBut_setReg s rde v, rfl, rfl, fun _ => rfl, rfl, rfl, rfl⟩

/-- The same, for another form of the value. -/
theorem writesReg_of_exec_eq {i : Instr} {s : State} {rde : RegId} {v w : Word}
    (h : exec i s = .next (s.setReg rde v).advance) (hv : v = w) : WritesReg i s rde w :=
  hv ▸ writesReg_of_exec h

/-- An instruction that answers the flags and goes on writes the flags and nothing else. -/
theorem writesFlags_of_exec {i : Instr} {s : State} {f : Flags} (h : exec i s = .next (s.setFlags f).advance) :
    WritesFlags i s f :=
  ⟨_, h, rfl, rfl, fun _ _ => rfl, rfl, fun _ => rfl, rfl, rfl, rfl⟩

/-- An instruction that answers another pc jumps there and does nothing else. -/
theorem jumpsTo_of_exec {i : Instr} {s : State} {target : Word} (h : exec i s = .next (s.setPc target)) :
    JumpsTo i s target :=
  ⟨_, h, rfl, fun _ _ => rfl, rfl, rfl, fun _ => rfl, rfl, rfl, rfl⟩

/-- An instruction that answers a trap raises the interrupt and does nothing else (log 14). -/
theorem raisesInterrupt_of_exec {i : Instr} {s : State} {id : IntId} (h : exec i s = .next (s.takeTrap id)) :
    RaisesInterrupt i s id :=
  ⟨_, h, rfl, rfl, rfl, rfl, fun _ _ => rfl, rfl, fun _ => rfl, rfl⟩

/-! ### System control and ports -/

/-- Settles O27: each of the four answers a state written out field by field. -/
theorem systemControl : Obligations.SystemControl := fun _ =>
  ⟨fun _ => raisesInterrupt_of_exec rfl,
    ⟨_, rfl, rfl, rfl, rfl, rfl, fun _ _ => rfl, rfl, fun _ => rfl, rfl⟩,
    ⟨_, rfl, rfl, rfl, rfl, rfl, fun _ _ => rfl, rfl, fun _ => rfl, rfl⟩,
    fun _ => ⟨_, rfl, rfl, rfl, fun _ _ => rfl, rfl, fun _ => rfl, rfl, rfl, rfl⟩⟩

/-- Settles O28: an output appends to the record, an input writes a register and draws a free value. -/
theorem portInstructions : Obligations.PortInstructions := fun s rde _ _ =>
  ⟨⟨_, rfl, rfl, rfl, fun _ _ => rfl, rfl, rfl, fun _ => rfl, rfl, rfl⟩,
    ⟨_, rfl, rfl, rfl, fun _ _ => rfl, rfl, rfl, fun _ => rfl, rfl, rfl⟩,
    ⟨_, rfl, State.reg_setReg_same .., rfl, sameRegsBut_setReg s rde _, rfl, rfl, fun _ => rfl, rfl, rfl, rfl⟩,
    ⟨_, rfl, State.reg_setReg_same .., rfl, sameRegsBut_setReg s rde _, rfl, rfl, fun _ => rfl, rfl, rfl, rfl⟩⟩

/-! ### Branches -/

/-- A branch goes to its target when its condition holds on the flags, and to the next instruction otherwise (R236). -/
theorem jumpsTo_branchIf {i : Instr} {s : State} {c : BranchCond} {imm : BitVec 20}
    (h : exec i s = .next (s.branchIf c imm)) :
    JumpsTo i s (if condHolds c s.flags = true then s.pc + 4 * imm.signExtend 64 else s.pc + 4) := by
  apply jumpsTo_of_exec
  rw [h, State.branchIf_eq, State.branchTarget, simm_eq_signExtend (by decide) (by decide)]

/-- A branch whose condition is a proposition on the flags. -/
theorem jumpsTo_branchIf_iff {i : Instr} {s : State} {c : BranchCond} {imm : BitVec 20} {p : Prop} [Decidable p]
    (h : exec i s = .next (s.branchIf c imm)) (hc : condHolds c s.flags = true ↔ p) :
    JumpsTo i s (if p then s.pc + 4 * imm.signExtend 64 else s.pc + 4) := by
  simpa only [hc] using jumpsTo_branchIf h

/-- A branch that is taken where a proposition on the flags fails. -/
theorem jumpsTo_branchIf_iff_not {i : Instr} {s : State} {c : BranchCond} {imm : BitVec 20} {p : Prop} [Decidable p]
    (h : exec i s = .next (s.branchIf c imm)) (hc : condHolds c s.flags = true ↔ ¬ p) :
    JumpsTo i s (if p then s.pc + 4 else s.pc + 4 * imm.signExtend 64) := by
  simpa only [hc, ite_not] using jumpsTo_branchIf h

/-- Settles O30: each condition is its flag, an "or" of two, or the negation of one of these (R122). -/
theorem branches : Obligations.Branches := fun s imm =>
  ⟨jumpsTo_branchIf (c := .always) rfl, jumpsTo_branchIf (c := .eq) rfl, jumpsTo_branchIf (c := .ez) rfl,
    jumpsTo_branchIf (c := .lt) rfl, jumpsTo_branchIf_iff (c := .le) rfl Bool.or_eq_true_iff,
    jumpsTo_branchIf (c := .ltu) rfl, jumpsTo_branchIf_iff (c := .leu) rfl Bool.or_eq_true_iff,
    jumpsTo_branchIf_iff_not (c := .ne) rfl (by simp [condHolds]),
    jumpsTo_branchIf_iff_not (c := .nz) rfl (by simp [condHolds]),
    jumpsTo_branchIf_iff_not (c := .ge) rfl (by simp [condHolds]),
    jumpsTo_branchIf_iff_not (c := .gt) rfl (by simp [condHolds]),
    jumpsTo_branchIf_iff_not (c := .geu) rfl (by simp [condHolds]),
    jumpsTo_branchIf_iff_not (c := .gtu) rfl (by simp [condHolds])⟩

/-! ### Compares -/

/-- The flags of a compare as relations on the values (R341). -/
theorem compareFlags_eq (a b : Word) : compareFlags a b =
    { eq := decide (a = b), zero := Config.compareZero a b, lt := decide (a.toInt < b.toInt),
      ltu := decide (a.toNat < b.toNat) } := by
  simp only [compareFlags, BitVec.slt, BitVec.ult, beq_eq_decide]

/-- An instruction that sets the flags of a compare writes them as relations on the values. -/
theorem writesFlags_of_compare {i : Instr} {s : State} {a b : Word}
    (h : exec i s = .next (s.setFlags (compareFlags a b)).advance) : WritesFlags i s
      { eq := decide (a = b), zero := Config.compareZero a b, lt := decide (a.toInt < b.toInt),
        ltu := decide (a.toNat < b.toNat) } :=
  compareFlags_eq a b ▸ writesFlags_of_exec h

/-- Settles O40: the operands in the order of the compare, the immediate in its extension. -/
theorem compares : Obligations.Compares := fun _ _ _ imm =>
  have himm : cmpImm imm = immValue Config.cmpImmExt imm := extendImm_eq_immValue _ imm
  ⟨writesFlags_of_compare rfl, himm ▸ writesFlags_of_compare rfl, himm ▸ writesFlags_of_compare rfl⟩

/-- A branch after a compare of two values tests their relation (R122, R341). -/
theorem jumpsTo_after_compare {i : Instr} {c : BranchCond} {imm : BitVec 20} (s : State) {x y : Word} {p : Prop}
    [Decidable p] (hexec : ∀ t, exec i t = .next (t.branchIf c imm))
    (hc : condHolds c (compareFlags x y) = true ↔ p) :
    JumpsTo i (s.setFlags (compareFlags x y)).advance
      (if p then s.pc + 4 + 4 * imm.signExtend 64 else s.pc + 8) := by
  have hnext : s.pc + 4 + 4 = s.pc + 8 := BitVec.add_assoc ..
  rw [← hnext]
  exact jumpsTo_branchIf_iff (hexec _) hc

/-- The condition of each branch but `bez` and `bnz` on the flags of a compare (R122, R341). -/
theorem condHolds_compareFlags (x y : Word) :
    (condHolds .eq (compareFlags x y) = true ↔ x = y) ∧ (condHolds .ne (compareFlags x y) = true ↔ x ≠ y) ∧
    (condHolds .lt (compareFlags x y) = true ↔ x.toInt < y.toInt) ∧
    (condHolds .le (compareFlags x y) = true ↔ x.toInt ≤ y.toInt) ∧
    (condHolds .ge (compareFlags x y) = true ↔ y.toInt ≤ x.toInt) ∧
    (condHolds .gt (compareFlags x y) = true ↔ y.toInt < x.toInt) ∧
    (condHolds .ltu (compareFlags x y) = true ↔ x.toNat < y.toNat) ∧
    (condHolds .leu (compareFlags x y) = true ↔ x.toNat ≤ y.toNat) ∧
    (condHolds .geu (compareFlags x y) = true ↔ y.toNat ≤ x.toNat) ∧
    (condHolds .gtu (compareFlags x y) = true ↔ y.toNat < x.toNat) := by
  have signed : x.toInt = y.toInt ↔ x = y := BitVec.toInt_inj
  have unsigned : x.toNat = y.toNat ↔ x = y := BitVec.toNat_inj
  have le : (x.toInt < y.toInt ∨ x = y) ↔ x.toInt ≤ y.toInt := by rw [← signed]; omega
  have leu : (x.toNat < y.toNat ∨ x = y) ↔ x.toNat ≤ y.toNat := by rw [← unsigned]; omega
  have cond : ∀ {p : Prop} [Decidable p], (!decide p) = true ↔ ¬ p := by simp
  simp only [condHolds, compareFlags_eq, ← Bool.decide_or, le, leu, cond, decide_eq_true_eq, Int.not_lt, Int.not_le,
    Nat.not_lt, Nat.not_le, ne_eq, and_self]

/-- Settles O31: a branch reads the flags that the compare set. -/
theorem compareThenBranch : Obligations.CompareThenBranch := by
  intro s a b imm
  obtain ⟨heq, hne, hlt, hle, hge, hgt, hltu, hleu, hgeu, hgtu⟩ := condHolds_compareFlags (s.reg a) (s.reg b)
  exact ⟨_, rfl, rfl, jumpsTo_after_compare s (fun _ => rfl) heq, jumpsTo_after_compare s (fun _ => rfl) hne,
    jumpsTo_after_compare s (fun _ => rfl) hlt, jumpsTo_after_compare s (fun _ => rfl) hle,
    jumpsTo_after_compare s (fun _ => rfl) hge, jumpsTo_after_compare s (fun _ => rfl) hgt,
    jumpsTo_after_compare s (fun _ => rfl) hltu, jumpsTo_after_compare s (fun _ => rfl) hleu,
    jumpsTo_after_compare s (fun _ => rfl) hgeu, jumpsTo_after_compare s (fun _ => rfl) hgtu⟩

/-! ### Arithmetic and bitwise -/

theorem helperAdd_result (a b : Word) : (helperAdd a b false).result = a + b := BitVec.add_zero (a + b)

theorem helperSub_result (a b : Word) : (helperSub a b false).result = a - b := BitVec.sub_zero (a - b)

/-- The low 64 bits of the signed product are the word's product (R435). -/
theorem helperImul_eq (a b : Word) : helperImul a b = a * b :=
  BitVec.eq_of_toInt_eq (by rw [helperImul, BitVec.toInt_ofInt, BitVec.toInt_mul])

/-- The low 64 bits of the unsigned product are the word's product (R435). -/
theorem helperUmul_eq (a b : Word) : helperUmul a b = a * b :=
  BitVec.eq_of_toNat_eq (by rw [helperUmul, BitVec.toNat_ofNat, BitVec.toNat_mul])

/-- Settles O41: the helpers' results are the word's sum, difference and product. -/
theorem aluArithmetic : Obligations.AluArithmetic := by
  intro s rde rs1 rs2 imm
  simp only [← aluImm_eq_aluOperand]
  exact ⟨writesReg_of_exec_eq rfl (helperAdd_result ..), writesReg_of_exec_eq rfl (helperAdd_result ..),
    writesReg_of_exec_eq rfl (helperSub_result ..), writesReg_of_exec_eq rfl (helperSub_result ..),
    writesReg_of_exec_eq rfl (helperImul_eq ..), writesReg_of_exec_eq rfl (helperImul_eq ..),
    writesReg_of_exec_eq rfl (helperUmul_eq ..), writesReg_of_exec_eq rfl (helperUmul_eq ..)⟩

/-- Settles O42: each result is the bitwise function itself. -/
theorem aluLogic : Obligations.AluLogic := by
  intro s rde rs1 rs2 imm
  simp only [← aluImm_eq_aluOperand]
  exact ⟨writesReg_of_exec rfl, writesReg_of_exec rfl, writesReg_of_exec rfl, writesReg_of_exec rfl,
    writesReg_of_exec rfl, writesReg_of_exec rfl, writesReg_of_exec rfl, writesReg_of_exec rfl⟩

/-- The tested bit is the low bit after a shift (R443). -/
theorem helperBit_eq (a b : Word) :
    helperBit a b = if b.toNat < 64 then (a >>> b.toNat) &&& 1 else Config.bitIndexOverWidth a b := by
  by_cases hb : b.toNat < 64
  · rw [if_pos hb]
    apply BitVec.eq_of_toNat_eq
    rw [helperBit_toNat hb, BitVec.toNat_and, BitVec.toNat_ushiftRight, Nat.shiftRight_eq_div_pow]
    exact (Nat.and_one_is_mod _).symm
  · rw [if_neg hb, helperBit, if_neg hb]

/-- Settles O43: the shifts are the helpers' own words, the tested bit is the low bit after a shift. -/
theorem aluShifts : Obligations.AluShifts := by
  intro s rde rs1 rs2 imm
  simp only [← aluImm_eq_aluOperand]
  exact ⟨writesReg_of_exec rfl, writesReg_of_exec rfl, writesReg_of_exec rfl, writesReg_of_exec rfl,
    writesReg_of_exec rfl, writesReg_of_exec rfl, writesReg_of_exec_eq rfl (helperBit_eq ..),
    writesReg_of_exec_eq rfl (helperBit_eq ..)⟩

/-! ### Divisions -/

/-- A division whose helper answers writes the answer (R444). -/
theorem writesReg_of_divTo {i : Instr} {s : State} {op : DivOp} {a b : Word} {r : Option Word} {rde : RegId} {v : Word}
    (h : exec i s = .next (s.divTo op a b r rde)) (hr : r = some v) : WritesReg i s rde v := by
  subst hr
  exact writesReg_of_exec h

/-- A division whose helper answers absent writes the fallback or raises the interrupt that the parameter gives (R444). -/
theorem divTo_absent {i : Instr} {s : State} {op : DivOp} {a b : Word} {r : Option Word} {rde : RegId}
    (h : exec i s = .next (s.divTo op a b r rde)) (hr : r = none) :
    (∃ v, Config.arithFailure op a b = .fallback v ∧ WritesReg i s rde v) ∨
    (∃ id, Config.arithFailure op a b = .trap id ∧ RaisesInterrupt i s id) := by
  subst hr
  rcases s.arithFail_cases op a b rde with ⟨v, hv, e⟩ | ⟨id, hid, e⟩
  · exact .inl ⟨v, hv, writesReg_of_exec (h.trans (congrArg _ e))⟩
  · exact .inr ⟨id, hid, raisesInterrupt_of_exec (h.trans (congrArg _ e))⟩

section
variable {a b : Word}

/-- The truncating signed quotient is the word's signed division (R436). -/
theorem helperIdiv_eq_some (h : ¬ SignedDivideFails a b) : helperIdiv a b = some (a.sdiv b) := by
  rw [← signedDivFails_iff] at h
  rw [helperIdiv, if_neg h]
  exact congrArg some (BitVec.eq_of_toInt_eq (by rw [BitVec.toInt_ofInt, BitVec.toInt_sdiv]))

/-- The truncating signed remainder is the word's signed remainder (R438). -/
theorem helperRem_eq_some (h : ¬ SignedDivideFails a b) : helperRem a b = some (a.srem b) := by
  rw [← signedDivFails_iff] at h
  rw [helperRem, if_neg h, ← Int.tmod_def, ← BitVec.toInt_srem, BitVec.ofInt_toInt]

theorem helperMod_eq_some (h : ¬ SignedDivideFails a b) :
    helperMod a b = some (BitVec.ofInt 64 (a.toInt % b.toInt)) := by
  rw [← signedDivFails_iff] at h
  exact if_neg h

theorem helperUdiv_eq_some (h : b ≠ 0) : helperUdiv a b = some (a / b) := by
  have hlt : a.toNat / b.toNat < 2 ^ 64 := Nat.div_lt_of_lt a.isLt
  rw [helperUdiv, if_neg h]
  exact congrArg some (BitVec.eq_of_toNat_eq (by rw [BitVec.toNat_ofNat, BitVec.toNat_udiv, Nat.mod_eq_of_lt hlt]))

end

/-- Settles O44: where a helper does not fail, its answer is the word's quotient or remainder. -/
theorem divisions : Obligations.Divisions := by
  intro s rde rs1 rs2 imm
  simp only [← aluImm_eq_aluOperand]
  exact ⟨fun h => ⟨writesReg_of_divTo rfl (helperIdiv_eq_some h), writesReg_of_divTo rfl (helperRem_eq_some h),
      writesReg_of_divTo rfl (helperMod_eq_some h)⟩,
    fun h => writesReg_of_divTo rfl (helperIdiv_eq_some h), fun h => writesReg_of_divTo rfl (helperRem_eq_some h),
    fun h => writesReg_of_divTo rfl (helperMod_eq_some h), fun h => writesReg_of_divTo rfl (helperUdiv_eq_some h),
    fun h => writesReg_of_divTo rfl (helperUdiv_eq_some h)⟩

/-- Settles O45: where a helper fails it answers absent, and the parameter decides. -/
theorem arithmeticFailure : Obligations.ArithmeticFailure := by
  intro s rde rs1 rs2 imm
  simp only [← aluImm_eq_aluOperand, ← helperUdiv_eq_none_iff (s.reg rs1)]
  exact ⟨fun h => ⟨divTo_absent rfl ((helperIdiv_eq_none_iff ..).mpr h), divTo_absent rfl ((helperRem_eq_none_iff ..).mpr h),
      divTo_absent rfl ((helperMod_eq_none_iff ..).mpr h)⟩,
    fun h => divTo_absent rfl h, fun h => divTo_absent rfl ((helperIdiv_eq_none_iff ..).mpr h),
    fun h => divTo_absent rfl ((helperRem_eq_none_iff ..).mpr h), fun h => divTo_absent rfl ((helperMod_eq_none_iff ..).mpr h),
    fun h => divTo_absent rfl h⟩

end Sys2Proof.Machine

/-! PROOF. Proofs/Data: data of several bytes in memory (R11, R57; logs 10, 11, 12). Byte k of a datum read is the byte at
its place in the data byte order; a datum written is held byte by byte, and reads back. -/
namespace Sys2Proof.Machine

/-! ### Reading a datum -/

/-- Bit j of the value of bytes given least significant first: bit j % 8 of byte j / 8. -/
theorem wordLittle_getLsbD (bs : List Byte) (j : Nat) (hj : j < 64) :
    (wordLittle bs).getLsbD j = (bs.getD (j / 8) 0).getLsbD (j % 8) := by
  induction bs generalizing j with
  | nil => simp [wordLittle]
  | cons b rest ih =>
    rw [wordLittle, BitVec.getLsbD_or, BitVec.getLsbD_shiftLeft, BitVec.getLsbD_setWidth]
    by_cases h8 : j < 8
    · have hdiv : j / 8 = 0 := by omega
      have hmod : j % 8 = j := by omega
      simp [h8, hj, hdiv, hmod]
    · have hdiv : j / 8 = (j - 8) / 8 + 1 := by omega
      have hmod : j % 8 = (j - 8) % 8 := by omega
      have hb : b.getLsbD j = false := BitVec.getLsbD_of_ge _ _ (by omega)
      rw [ih (j - 8) (by omega), hdiv, hmod, List.getD_cons_succ]
      simp [h8, hj, hb]

/-- The place of byte k of an n-byte datum, counted from its address up, in a byte order (log 11). -/
def bytePlace (o : ByteOrder) (n k : Nat) : Nat :=
  match o with
  | .little => k
  | .big => n - 1 - k

theorem bytePlace_lt {o : ByteOrder} {n k : Nat} (h : k < n) : bytePlace o n k < n := by
  cases o with
  | little => exact h
  | big => simp only [bytePlace]; omega

/-- The byte at the place of a byte's place is that byte. -/
theorem bytePlace_bytePlace (o : ByteOrder) {n k : Nat} (h : k < n) : bytePlace o n (bytePlace o n k) = k := by
  cases o with
  | little => rfl
  | big => simp only [bytePlace]; omega

/-- Bit j of the datum that bytes at rising addresses hold, in a byte order. -/
theorem datumOfBytes_getLsbD (o : ByteOrder) (bs : List Byte) (j : Nat) (hj : j < 64) :
    (datumOfBytes o bs).getLsbD j =
      if j / 8 < bs.length then (bs.getD (bytePlace o bs.length (j / 8)) 0).getLsbD (j % 8) else false := by
  cases o with
  | little =>
    rw [datumOfBytes, wordLittle_getLsbD _ _ hj, bytePlace]
    split
    · rfl
    · next h => rw [List.getD_eq_default _ _ (by omega)]; exact BitVec.getLsbD_zero
  | big =>
    rw [datumOfBytes, wordLittle_getLsbD _ _ hj, bytePlace]
    split
    · next h => rw [List.getD_reverse _ (by simpa using h)]
    · next h => rw [List.getD_eq_default _ _ (by simpa using h)]; exact BitVec.getLsbD_zero

/-- Bit j of a datum read from memory: bit j % 8 of the byte at the place of byte j / 8 (logs 10, 11). -/
theorem State.memRead_getLsbD (s : State) (a : Word) (n j : Nat) (hj : j < 64) :
    (s.memRead a n).getLsbD j =
      if j / 8 < n then (s.readByte (a + BitVec.ofNat 64 (bytePlace Config.dataOrder n (j / 8)))).getLsbD (j % 8)
      else false := by
  rw [State.memRead, Memory.readDatum, datumOfBytes_getLsbD _ _ _ hj, Memory.readBytes_length]
  split
  · next h =>
    have hplace := bytePlace_lt (o := Config.dataOrder) h
    rw [List.getD_eq_getElem _ _ (by simpa using hplace), Memory.readBytes_getElem _ _ _ _ hplace]
    rfl
  · rfl

/-- Nothing is above a datum (R11). -/
theorem State.memRead_getLsbD_above (s : State) (a : Word) (n j : Nat) (h : 8 * n ≤ j) :
    (s.memRead a n).getLsbD j = false := by
  by_cases hj : j < 64
  · rw [s.memRead_getLsbD a n j hj, if_neg (by omega)]
  · exact BitVec.getLsbD_of_ge _ _ (by omega)

/-- Byte k of a datum of up to 8 bytes (logs 10, 11). -/
theorem State.memRead_byte (s : State) (a : Word) {n k : Nat} (hn : n ≤ 8) (hk : k < n) :
    (s.memRead a n).extractLsb' (8 * k) 8 = s.readByte (a + BitVec.ofNat 64 (bytePlace Config.dataOrder n k)) := by
  apply BitVec.eq_of_getLsbD_eq
  intro i hi
  have hdiv : (8 * k + i) / 8 = k := by omega
  have hmod : (8 * k + i) % 8 = i := by omega
  rw [BitVec.getLsbD_extractLsb', s.memRead_getLsbD a n _ (by omega), hdiv, hmod]
  simp [hi, hk]

/-- Settles O37: a bit of the datum is a bit of the byte at its place. -/
theorem readDatumBytes : Obligations.ReadDatumBytes := fun s a n hn =>
  ⟨fun _ hk => s.memRead_byte a hn hk, fun j hj => s.memRead_getLsbD_above a n j hj⟩

/-! ### Writing a datum -/

/-- The byte of an n-byte datum at place k (log 11). -/
theorem datumByte_eq (n : Nat) (v : Word) (k : Nat) :
    datumByte n v k = v.extractLsb' (8 * bytePlace Config.dataOrder n k) 8 := by
  unfold datumByte bytePlace
  cases Config.dataOrder <;> rfl

/-- Byte k of a datum's bytes at rising addresses (log 11). -/
theorem datumBytes_getElem (n : Nat) (v : Word) (k : Nat) (h : k < n) :
    (datumBytes Config.dataOrder n v)[k]'(by simpa using h) = datumByte n v k := by
  rw [datumByte_eq]
  cases Config.dataOrder with
  | little => exact bytesLittle_getElem n v k h
  | big =>
    simp only [datumBytes, List.getElem_reverse, bytesLittle_length]
    exact bytesLittle_getElem n v (n - 1 - k) (by omega)

/-- A datum written is held byte by byte, in memory of the canonical form (log 12). -/
theorem holdsDatum_memWrite {s : State} (h : s.memoryOk) (a : Word) {n : Nat} (hn : n ≤ 8) (v : Word) :
    HoldsDatum (s.memWrite a n v) a n v := by
  intro k hk
  rw [← datumBytes_getElem n v k hk]
  exact Memory.read_writeBytes_same _ s.mem h a (by rw [datumBytes_length]; omega) k (by rw [datumBytes_length]; exact hk)

/-- A datum written leaves every other byte (log 12). -/
theorem sameMemoryOutside_memWrite (s : State) (a : Word) (n : Nat) (v : Word) :
    SameMemoryOutside a n s (s.memWrite a n v) :=
  fun b hb => s.readByte_memWrite_ne a n v b hb

/-- A datum held in memory reads as the low n bytes of its value (logs 10, 11). -/
theorem memRead_getLsbD_of_holdsDatum {t : State} {a : Word} {n : Nat} {v : Word} (h : HoldsDatum t a n v) (j : Nat)
    (hj : j < 64) : (t.memRead a n).getLsbD j = (decide (j < 8 * n) && v.getLsbD j) := by
  rw [t.memRead_getLsbD a n j hj]
  by_cases hlow : j / 8 < n
  · have hpos : 8 * (j / 8) + j % 8 = j := by omega
    have hmod : j % 8 < 8 := by omega
    have hin : j < 8 * n := by omega
    rw [if_pos hlow, h _ (bytePlace_lt hlow), datumByte_eq, bytePlace_bytePlace _ hlow, BitVec.getLsbD_extractLsb', hpos]
    simp [hmod, hin]
  · have hout : ¬ j < 8 * n := by omega
    simp [hlow, hout]

/-- An 8-byte datum held in memory reads as its value. -/
theorem memRead_eight_of_holdsDatum {t : State} {a v : Word} (h : HoldsDatum t a 8 v) : t.memRead a 8 = v := by
  apply BitVec.eq_of_getLsbD_eq
  intro j hj
  rw [memRead_getLsbD_of_holdsDatum h j hj]
  simp [hj]

end Sys2Proof.Machine

/-! PROOF. Proofs/LoadsStoresStack: the loads and stores, the load-immediates, the stack instructions, calls and returns
(R230 to R234, R270 to R321). -/
namespace Sys2Proof.Machine

/-! ### Load immediate -/

/-- A plain load-immediate replaces a slice and nothing else (R291). -/
theorem writesReg_loadImmPlain {i : Instr} {s : State} {rde : RegId} {k : Nat} {imm : BitVec 16} {v : Word}
    (h : exec i s = .next (s.loadImmPlain rde k imm)) (hv : overwrite (16 * k) 16 (s.reg rde) imm = v) :
    WritesReg i s rde v :=
  writesReg_of_exec_eq (h.trans (congrArg _ (s.loadImmPlain_eq rde k imm))) hv

/-- A sign-extending load-immediate writes the whole register (R292). -/
theorem writesReg_loadImmSigned {i : Instr} {s : State} {rde : RegId} {k : Nat} {imm : BitVec 16} {v : Word}
    (h : exec i s = .next (s.loadImmSigned rde k imm)) (hv : sext (16 * (k + 1)) (uimm imm <<< (16 * k)) = v) :
    WritesReg i s rde v :=
  writesReg_of_exec_eq (h.trans (congrArg _ (s.loadImmSigned_eq rde k imm))) hv

/-- A word is a register with a slice replaced when its bits there are the slice's and all others the register's. -/
theorem overwrite_eq_of_getLsbD {lo w : Nat} {x v : Word} {imm : BitVec w}
    (h : ∀ i, i < 64 → v.getLsbD i = if lo ≤ i ∧ i < lo + w then imm.getLsbD (i - lo) else x.getLsbD i) :
    overwrite lo w x imm = v :=
  BitVec.eq_of_getLsbD_eq fun i hi => (overwrite_getLsbD lo w x imm i hi).trans (h i hi).symm

/-- An immediate moved up by lo bits and extended from its own top bit: zeros below it, copies of that bit above (R292). -/
theorem sext_uimm_shiftLeft (imm : BitVec 16) {lo : Nat} (h : lo ≤ 48) :
    sext (16 + lo) (uimm imm <<< lo) = (imm ++ 0#lo).signExtend 64 := by
  have hlow : (uimm imm <<< lo).setWidth (16 + lo) = imm ++ 0#lo := by
    apply BitVec.eq_of_getLsbD_eq
    intro i hi
    simp only [uimm, BitVec.getLsbD_append, BitVec.getLsbD_setWidth, BitVec.getLsbD_shiftLeft, BitVec.getLsbD_zero]
    grind
  rw [sext_eq_signExtend (by omega) (by omega), hlow]

/-- At bit 0 a sign-extending load-immediate is the sign extension of its immediate (R292). -/
theorem sext_uimm_zero (imm : BitVec 16) : sext 16 (uimm imm <<< 0) = imm.signExtend 64 := by
  rw [BitVec.shiftLeft_zero]
  exact simm_eq_signExtend (by decide) (by decide) imm

/-- Settles O35: each slice of the register is the immediate or the slice of before. -/
theorem loadImmediates : Obligations.LoadImmediates := by
  intro s rde imm
  refine ⟨writesReg_loadImmPlain (k := 0) rfl ?_, writesReg_loadImmPlain (k := 1) rfl ?_,
    writesReg_loadImmPlain (k := 2) rfl ?_, writesReg_loadImmPlain (k := 3) rfl ?_,
    writesReg_loadImmSigned (k := 0) rfl (sext_uimm_zero imm),
    writesReg_loadImmSigned (k := 1) rfl (sext_uimm_shiftLeft imm (by decide)),
    writesReg_loadImmSigned (k := 2) rfl (sext_uimm_shiftLeft imm (by decide)),
    writesReg_loadImmSigned (k := 3) rfl
      ((sext_uimm_shiftLeft imm (lo := 48) (by decide)).trans (BitVec.signExtend_eq _))⟩
  all_goals
    refine overwrite_eq_of_getLsbD fun i hi => ?_
    simp only [BitVec.getLsbD_append, BitVec.getLsbD_extractLsb']
    grind

/-! ### Loads and stores -/

/-- The effective address of R310. -/
theorem effAddr_eq_indexedAddress (s : State) (rs1 rs2 : RegId) (func : Nibble) (imm : BitVec 8) :
    s.effAddr rs1 rs2 func imm = indexedAddress s rs1 rs2 func imm := by
  rw [State.effAddr, indexedAddress, simm_eq_signExtend (by decide) (by decide)]

/-- A datum of n bytes is its own zero extension (R312). -/
theorem memRead_eq_setWidth (s : State) (a : Word) {n w : Nat} (hw : w = 8 * n) :
    s.memRead a n = ((s.memRead a n).extractLsb' 0 w).setWidth 64 := by
  apply BitVec.eq_of_getLsbD_eq
  intro j hj
  rw [BitVec.getLsbD_setWidth, BitVec.getLsbD_extractLsb', Nat.zero_add]
  by_cases hlow : j < w
  · simp [hj, hlow]
  · simp [hlow, s.memRead_getLsbD_above a n j (by omega)]

/-- Sign extension from the datum's own width (R313). -/
theorem sext_eq_signExtend_extractLsb' {n : Nat} (h1 : 1 ≤ n) (h2 : n ≤ 64) (v : Word) :
    sext n v = (v.extractLsb' 0 n).signExtend 64 := by
  rw [sext_eq_signExtend h1 h2, BitVec.setWidth_eq_extractLsb' h2]

/-- The only byte of a datum of one byte (R316). -/
theorem memRead_one (s : State) (a : Word) : (s.memRead a 1).extractLsb' 0 8 = s.readByte a := by
  have hplace : bytePlace Config.dataOrder 1 0 = 0 := by
    have := bytePlace_lt (o := Config.dataOrder) (n := 1) (k := 0) (by decide)
    omega
  have hbyte := s.memRead_byte a (n := 1) (k := 0) (by decide) (by decide)
  rwa [hplace, BitVec.add_zero] at hbyte

/-- Settles O36: the datum at the effective address, in the extension of each load. -/
theorem loads : Obligations.Loads := by
  intro s rde rs1 rs2 func imm
  simp only [← effAddr_eq_indexedAddress, ← memRead_one]
  exact ⟨writesReg_of_exec rfl, writesReg_of_exec_eq rfl (memRead_eq_setWidth _ _ rfl),
    writesReg_of_exec_eq rfl (sext_eq_signExtend_extractLsb' (by decide) (by decide) _),
    writesReg_of_exec_eq rfl (memRead_eq_setWidth _ _ rfl),
    writesReg_of_exec_eq rfl (sext_eq_signExtend_extractLsb' (by decide) (by decide) _),
    writesReg_of_exec_eq rfl (memRead_eq_setWidth _ _ rfl),
    writesReg_of_exec_eq rfl (sext_eq_signExtend_extractLsb' (by decide) (by decide) _)⟩

/-- An instruction that answers a memory write and goes on stores the datum and does nothing else (logs 10 to 12). -/
theorem storesDatum_of_exec {i : Instr} {s : State} (hs : s.memoryOk) {a : Word} {n : Nat} (hn : n ≤ 8) {v : Word}
    (h : exec i s = .next (s.memWrite a n v).advance) : StoresDatum i s a n v :=
  ⟨_, h, holdsDatum_memWrite hs a hn v, sameMemoryOutside_memWrite s a n v, rfl, fun _ _ => rfl, rfl, rfl, rfl, rfl, rfl⟩

/-- Settles O38: each store writes the datum of its width at the effective address. -/
theorem stores : Obligations.Stores := by
  intro s hs rde rs1 rs2 func imm
  simp only [← effAddr_eq_indexedAddress]
  exact ⟨storesDatum_of_exec hs (by decide) rfl, storesDatum_of_exec hs (by decide) rfl,
    storesDatum_of_exec hs (by decide) rfl, storesDatum_of_exec hs (by decide) rfl⟩

/-- The low bits of a datum held in memory are those of its value. -/
theorem extractLsb'_memRead_of_holdsDatum {t : State} {a : Word} {n w : Nat} {v : Word} (h : HoldsDatum t a n v)
    (hw : w = 8 * n) : (t.memRead a n).extractLsb' 0 w = v.extractLsb' 0 w := by
  apply BitVec.eq_of_getLsbD_eq
  intro j hj
  rw [BitVec.getLsbD_extractLsb', BitVec.getLsbD_extractLsb', Nat.zero_add]
  by_cases h64 : j < 64
  · have hin : j < 8 * n := by omega
    simp [memRead_getLsbD_of_holdsDatum h j h64, hin]
  · simp [BitVec.getLsbD_of_ge _ j (Nat.not_lt.mp h64)]

/-- Settles O39: the store changes no register, so the load has the same address, and the datum is held there. -/
theorem storeThenLoad : Obligations.StoreThenLoad := by
  intro s hs rde d rs1 rs2 func imm
  have holds : ∀ n, n ≤ 8 → HoldsDatum (s.memWrite (s.effAddr rs1 rs2 func imm) n (s.reg rde)).advance
      (s.effAddr rs1 rs2 func imm) n (s.reg rde) := fun n hn => holdsDatum_memWrite hs _ hn _
  refine ⟨⟨_, rfl, writesReg_of_exec_eq rfl (memRead_eight_of_holdsDatum (holds 8 (by decide)))⟩,
    ⟨_, rfl, ?_, ?_⟩, ⟨_, rfl, ?_, ?_⟩, ⟨_, rfl, ?_, ?_⟩⟩
  · rw [← extractLsb'_memRead_of_holdsDatum (holds 4 (by decide)) rfl]
    exact writesReg_of_exec_eq rfl (memRead_eq_setWidth _ _ rfl)
  · rw [← extractLsb'_memRead_of_holdsDatum (holds 4 (by decide)) rfl]
    exact writesReg_of_exec_eq rfl (sext_eq_signExtend_extractLsb' (by decide) (by decide) _)
  · rw [← extractLsb'_memRead_of_holdsDatum (holds 2 (by decide)) rfl]
    exact writesReg_of_exec_eq rfl (memRead_eq_setWidth _ _ rfl)
  · rw [← extractLsb'_memRead_of_holdsDatum (holds 2 (by decide)) rfl]
    exact writesReg_of_exec_eq rfl (sext_eq_signExtend_extractLsb' (by decide) (by decide) _)
  · rw [← extractLsb'_memRead_of_holdsDatum (holds 1 (by decide)) rfl]
    exact writesReg_of_exec_eq rfl (memRead_eq_setWidth _ _ rfl)
  · rw [← extractLsb'_memRead_of_holdsDatum (holds 1 (by decide)) rfl]
    exact writesReg_of_exec_eq rfl (sext_eq_signExtend_extractLsb' (by decide) (by decide) _)

/-! ### The stack -/

/-- Lowering the stack pointer and raising it again gives it back, wrapping at 2^64 (log 9). -/
theorem sub_eight_add_eight (x : Word) : x - 8 + 8 = x := BitVec.sub_add_cancel x 8

theorem reg_pushWord (s : State) (v : Word) (r : RegId) :
    (s.pushWord v).reg r = if r = spReg then s.reg spReg - 8 else s.reg r := by
  rw [State.pushWord_eq, State.memWrite_reg, State.reg_setReg]

/-- What a push does to the state: the stack pointer is 8 lower, the 8 bytes there hold the value, and nothing else
changes (R271; log 9). -/
theorem pushWord_effect {s : State} (hs : s.memoryOk) (v : Word) :
    (s.pushWord v).reg spReg = s.reg spReg - 8 ∧ HoldsDatum (s.pushWord v) (s.reg spReg - 8) 8 v ∧
    SameMemoryOutside (s.reg spReg - 8) 8 s (s.pushWord v) ∧ SameRegsBut [spReg] s (s.pushWord v) := by
  refine ⟨by rw [reg_pushWord, if_pos rfl], holdsDatum_memWrite (s := s.setReg spReg (s.reg spReg - 8)) hs _ (by decide) v,
    sameMemoryOutside_memWrite (s.setReg spReg (s.reg spReg - 8)) _ 8 v, fun r hr => ?_⟩
  rw [reg_pushWord, if_neg (by simpa using hr)]

/-- The value that a push stores: the register, read after the stack pointer is lowered (R271; log 9). -/
theorem pushReg_eq (s : State) (r : RegId) :
    s.pushReg r = s.pushWord (if r = spReg then s.reg spReg - 8 else s.reg r) := by
  rw [State.pushReg, State.lowerSp, State.reg_setReg]

/-- The registers after a pop: the loaded word, then the stack pointer raised (R272; log 9). -/
theorem reg_popReg (s : State) (r q : RegId) :
    (s.popReg r).reg q =
      if q = spReg then (if r = spReg then s.topWord else s.reg spReg) + 8 else if q = r then s.topWord else s.reg q := by
  rw [State.popReg_eq, State.reg_setReg, State.reg_setReg, State.reg_setReg]
  simp only [eq_comm (a := spReg)]
  rfl

/-- Settles O32: a push stores the register as it is after the lowering, a pop writes the register before the raising. -/
theorem pushAndPop : Obligations.PushAndPop := by
  refine fun s hs => ⟨fun rs1 => ⟨(s.pushReg rs1).advance, rfl, ?_⟩, fun rde => ⟨(s.popReg rde).advance, rfl, ?_⟩⟩
  · rw [pushReg_eq]
    obtain ⟨hsp, hheld, hmem, hregs⟩ := pushWord_effect hs (if rs1 = spReg then s.reg spReg - 8 else s.reg rs1)
    exact ⟨hsp, hheld, hmem, hregs, rfl, rfl, rfl, rfl, rfl, rfl⟩
  · refine ⟨?_, ?_, fun q hq => ?_, rfl, rfl, rfl, fun _ => rfl, rfl, rfl, rfl⟩
    · rw [State.advance_reg, reg_popReg]
      by_cases h : rde = spReg <;> simp [h, State.topWord]
    · rw [State.advance_reg, reg_popReg]
      by_cases h : rde = spReg <;> simp [h, State.topWord]
    · obtain ⟨hrde, hsp⟩ : q ≠ rde ∧ q ≠ spReg := by simpa using hq
      rw [State.advance_reg, reg_popReg, if_neg hsp, if_neg hrde]

/-- The state after `enter`, but for the pc (R273). -/
def afterEnter (s : State) : State := (s.pushReg fpReg).setReg fpReg ((s.pushReg fpReg).reg spReg)

/-- The state after `leave`, but for the pc (R274). -/
def afterLeave (s : State) : State := (s.setReg spReg (s.reg fpReg)).popReg fpReg

theorem exec_enter (s : State) : exec .enter s = .next (afterEnter s).advance := rfl

theorem exec_leave (s : State) : exec .leave s = .next (afterLeave s).advance := rfl

/-- After `enter` both pointers are the lowered stack pointer, and what the frame pointer was, read after the lowering, is
stored there (R273). -/
theorem afterEnter_effect {s : State} (hs : s.memoryOk) :
    (afterEnter s).reg spReg = s.reg spReg - 8 ∧ (afterEnter s).reg fpReg = s.reg spReg - 8 ∧
    HoldsDatum (afterEnter s) (s.reg spReg - 8) 8 (if fpReg = spReg then s.reg spReg - 8 else s.reg fpReg) ∧
    SameMemoryOutside (s.reg spReg - 8) 8 s (afterEnter s) ∧ SameRegsBut [spReg, fpReg] s (afterEnter s) := by
  obtain ⟨hsp, hheld, hmem, hregs⟩ := pushWord_effect hs (if fpReg = spReg then s.reg spReg - 8 else s.reg fpReg)
  rw [afterEnter, pushReg_eq]
  refine ⟨?_, ?_, hheld, hmem, fun q hq => ?_⟩
  · rw [State.reg_setReg, hsp, ite_self]
  · rw [State.reg_setReg_same, hsp]
  · obtain ⟨hqsp, hqfp⟩ : q ≠ spReg ∧ q ≠ fpReg := by simpa using hq
    rw [State.reg_setReg_ne _ _ _ _ hqfp, hregs q (by simpa using hqsp)]

/-- The registers after `leave`: the frame pointer is loaded from where it points, the stack pointer is 8 above that, or
above the loaded word when the two are one register (R274). -/
theorem reg_afterLeave (s : State) (q : RegId) :
    (afterLeave s).reg q = if q = spReg then (if fpReg = spReg then s.memRead (s.reg fpReg) 8 else s.reg fpReg) + 8
      else if q = fpReg then s.memRead (s.reg fpReg) 8 else s.reg q := by
  have htop : (s.setReg spReg (s.reg fpReg)).topWord = s.memRead (s.reg fpReg) 8 := by
    rw [State.topWord, State.reg_setReg_same, State.setReg_memRead]
  rw [afterLeave, reg_popReg, htop, State.reg_setReg_same]
  by_cases hq : q = spReg
  · rw [if_pos hq, if_pos hq]
  · rw [if_neg hq, if_neg hq, State.reg_setReg_ne _ _ _ _ hq]

/-- Settles O33: `enter` is a push and a copy, `leave` a copy and a pop. -/
theorem enterAndLeave : Obligations.EnterAndLeave := by
  refine fun s hs => ⟨⟨(afterEnter s).advance, exec_enter s, ?_⟩, ⟨(afterLeave s).advance, exec_leave s, ?_⟩⟩
  · obtain ⟨hsp, hfp, hheld, hmem, hregs⟩ := afterEnter_effect hs
    exact ⟨hsp, hfp, hheld, hmem, hregs, rfl, rfl, rfl, rfl, rfl, rfl⟩
  · refine ⟨?_, ?_, fun q hq => ?_, rfl, rfl, rfl, fun _ => rfl, rfl, rfl, rfl⟩
    · rw [State.advance_reg, reg_afterLeave]
      by_cases h : fpReg = spReg <;> simp [h]
    · rw [State.advance_reg, reg_afterLeave]
      by_cases h : fpReg = spReg <;> simp [h]
    · obtain ⟨hqsp, hqfp⟩ : q ≠ spReg ∧ q ≠ fpReg := by simpa using hq
      rw [State.advance_reg, reg_afterLeave, if_neg hqsp, if_neg hqfp]

/-! ### Calls and returns -/

theorem callTarget_eq (s : State) (rs1 : RegId) (imm : BitVec 16) :
    s.callTarget rs1 imm = s.reg rs1 + 4 * imm.signExtend 64 := by
  rw [State.callTarget, simm_eq_signExtend (by decide) (by decide)]

/-- Settles O29: a call pushes or writes the return address and then reads its target's register, a return reads the top
of the stack or a register. -/
theorem callsAndReturns : Obligations.CallsAndReturns := by
  refine fun s hs => ⟨fun rs1 imm => ⟨s.pushReturn.setPc (s.pushReturn.callTarget rs1 imm), rfl, ?_⟩,
    fun rde rs1 imm => ⟨(s.setReg rde s.nextPc).setPc ((s.setReg rde s.nextPc).callTarget rs1 imm), rfl, ?_⟩,
    ⟨s.raiseSp.setPc s.topWord, rfl, rfl, ?_⟩, fun rs1 => jumpsTo_of_exec rfl⟩
  · rw [State.pushReturn_eq]
    obtain ⟨hsp, hheld, hmem, hregs⟩ := pushWord_effect hs (s.pc + 4)
    refine ⟨?_, (State.setPc_reg ..).trans hsp, fun k hk => (State.setPc_readByte ..).trans (hheld k hk),
      fun b hb => (State.setPc_readByte ..).trans (hmem b hb), fun q hq => (State.setPc_reg ..).trans (hregs q hq),
      rfl, rfl, rfl, rfl, rfl⟩
    rw [State.setPc_pc, callTarget_eq, reg_pushWord]
  · refine ⟨?_, (State.setPc_reg ..).trans (State.reg_setReg_same s rde (s.pc + 4)),
      fun q hq => (State.setPc_reg ..).trans (sameRegsBut_setReg s rde (s.pc + 4) q hq), rfl, rfl, fun _ => rfl,
      rfl, rfl, rfl⟩
    rw [State.setPc_pc, callTarget_eq, State.reg_setReg]
    rfl
  · exact ⟨(State.setPc_reg ..).trans (State.reg_setReg_same s spReg (s.reg spReg + 8)),
      fun q hq => (State.setPc_reg ..).trans (sameRegsBut_setReg s spReg (s.reg spReg + 8) q hq), rfl, rfl, fun _ => rfl,
      rfl, rfl, rfl⟩

/-! ### Round trips -/

/-- The word at the top of the stack after a push is the word pushed (log 12). -/
theorem topWord_pushWord {s : State} (hs : s.memoryOk) (v : Word) : (s.pushWord v).topWord = v := by
  obtain ⟨hsp, hheld, -, -⟩ := pushWord_effect hs v
  rw [State.topWord, hsp]
  exact memRead_eight_of_holdsDatum hheld

/-- After `enter` and `leave` every register is as before. -/
theorem reg_afterLeave_afterEnter {s : State} (hs : s.memoryOk) (q : RegId) :
    (afterLeave (afterEnter s).advance).reg q = s.reg q := by
  obtain ⟨-, hfp, hheld, -, hregs⟩ := afterEnter_effect hs
  rw [reg_afterLeave, State.advance_reg, State.advance_reg, State.advance_memRead, hfp,
    memRead_eight_of_holdsDatum hheld]
  by_cases hsp : q = spReg
  · rw [if_pos hsp, hsp]
    by_cases h : fpReg = spReg
    · rw [if_pos h, if_pos h, sub_eight_add_eight]
    · rw [if_neg h, sub_eight_add_eight]
  · rw [if_neg hsp]
    by_cases hqfp : q = fpReg
    · rw [if_pos hqfp, if_neg (hqfp ▸ hsp), hqfp]
    · rw [if_neg hqfp, hregs q (by simp [hsp, hqfp])]

theorem exec_jal (s : State) (rs1 : RegId) (imm : BitVec 16) :
    exec (.jal rs1 imm) s = .next ((s.pushWord (s.pc + 4)).setPc (s.pushReturn.callTarget rs1 imm)) := rfl

theorem topWord_setPc (s : State) (v : Word) : (s.setPc v).topWord = s.topWord := by
  rw [State.topWord, State.topWord, State.setPc_reg, State.setPc_memRead]

theorem exec_ret (s : State) : exec .ret s = .next (s.raiseSp.setPc s.topWord) := rfl

/-- Settles O34: what was pushed is at the top of the stack, and raising the stack pointer undoes lowering it. -/
theorem stackRoundTrips : Obligations.StackRoundTrips := by
  refine fun s hs => ⟨fun a b ha hb => ?_, ?_, fun rs1 imm => ?_⟩
  · refine ⟨(s.pushReg a).advance, ((s.pushReg a).advance.popReg b).advance, rfl, rfl, ?_⟩
    have htop : (s.pushReg a).advance.topWord = s.reg a := by
      rw [pushReg_eq, if_neg ha]
      exact topWord_pushWord hs _
    have hregs : ∀ q, ((s.pushReg a).advance.popReg b).advance.reg q = if q = b then s.reg a else s.reg q := by
      intro q
      rw [State.advance_reg, reg_popReg, htop, if_neg hb, State.advance_reg, State.advance_reg, pushReg_eq,
        reg_pushWord, reg_pushWord, if_pos rfl, sub_eight_add_eight]
      by_cases hq : q = spReg
      · subst hq
        rw [if_pos rfl, if_neg (Ne.symm hb)]
      · rw [if_neg hq, if_neg hq]
    refine ⟨by rw [hregs, if_pos rfl], by rw [hregs, if_neg (Ne.symm hb)], fun q hq => ?_⟩
    rw [hregs, if_neg (by simpa using hq)]
  · exact ⟨(afterEnter s).advance, (afterLeave (afterEnter s).advance).advance, exec_enter s, exec_leave _,
      fun q _ => (State.advance_reg ..).trans (reg_afterLeave_afterEnter hs q)⟩
  · refine ⟨_, _, exec_jal s rs1 imm, exec_ret _, ?_, fun q _ => ?_⟩
    · rw [State.setPc_pc, topWord_setPc, topWord_pushWord hs]
    · rw [State.setPc_reg, State.raiseSp, State.setPc_reg, State.reg_setReg, State.setPc_reg, reg_pushWord, reg_pushWord,
        if_pos rfl, sub_eight_add_eight]
      by_cases hq : q = spReg
      · rw [if_pos hq, hq]
      · rw [if_neg hq, if_neg hq]

end Sys2Proof.Machine

/-! PROOF. Proofs/FloatInstructions: where the float instructions put their results (R400 to R416, R461). -/
namespace Sys2Proof.Machine

/-- Settles O49: a result pattern is a slice of its container. -/
theorem floatResultPlacement : Obligations.FloatResultPlacement := by
  intro p old pat
  have hwidth : 0 + p.width ≤ 64 := by cases p <;> decide
  have placed : ∀ c : Word, (overwrite 0 p.width c pat).extractLsb' 0 p.width = pat ∧
      ∀ k, p.width ≤ k → (overwrite 0 p.width c pat).getLsbD k = c.getLsbD k := by
    refine fun c => ⟨extractLsb'_overwrite 0 p.width c pat hwidth, fun k hk => ?_⟩
    by_cases h64 : k < 64
    · rw [overwrite_getLsbD 0 p.width c pat k h64, if_neg (by omega)]
    · rw [BitVec.getLsbD_of_ge _ k (Nat.not_lt.mp h64), BitVec.getLsbD_of_ge _ k (Nat.not_lt.mp h64)]
  rw [placeFloat]
  cases Config.floatUpperBits with
  | preserve => exact placed old
  | zero => exact ⟨(placed 0).1, fun k hk => ((placed 0).2 k hk).trans BitVec.getLsbD_zero⟩

/-- A double fills its container (R461). -/
theorem placeFloat_double (old : Word) (pat : BitVec FloatPrec.double.width) : placeFloat .double old pat = pat := by
  obtain ⟨hlow, -⟩ := floatResultPlacement .double old pat
  exact BitVec.extractLsb'_eq_self.symm.trans hlow

/-- The double operand is the whole register (R461). -/
theorem floatReg_double (s : State) (r : RegId) : s.floatReg .double r = s.reg r := BitVec.extractLsb'_eq_self

/-- An instruction that answers a float result writes it in the low bits of its register and does nothing else. -/
theorem writesReg_floatTo {i : Instr} {s : State} {p : FloatPrec} {rde : RegId} {pat : BitVec p.width}
    (h : exec i s = .next (s.floatTo p rde pat)) : WritesReg i s rde (placeFloat p (s.reg rde) pat) :=
  writesReg_of_exec (h.trans (congrArg _ (s.floatTo_eq p rde pat)))

/-- At double precision the result is the register's new value. -/
theorem writesReg_floatTo_double {i : Instr} {s : State} {rde : RegId} {pat v : Word}
    (h : exec i s = .next (s.floatTo .double rde pat)) (hv : pat = v) : WritesReg i s rde v :=
  writesReg_of_exec_eq (h.trans (congrArg _ (s.floatTo_eq .double rde pat))) ((placeFloat_double _ _).trans hv)

/-- The cast between equal precisions is the identity (R468). -/
theorem floatCast_self (p : FloatPrec) (a : BitVec p.width) : floatCast p p a = a := by
  rw [floatCast, if_pos rfl, BitVec.setWidth_eq]

/-- Settles O46: every arithmetic instruction answers the float layer's result of the low bits of its registers. -/
theorem floatArithmeticInstructions : Obligations.FloatArithmeticInstructions := by
  intro s rde rs1 rs2
  have hd := floatReg_double s rde
  have h1 := floatReg_double s rs1
  have h2 := floatReg_double s rs2
  refine ⟨⟨writesReg_floatTo rfl, writesReg_floatTo rfl, writesReg_floatTo_double rfl ?_⟩,
    ⟨writesReg_floatTo rfl, writesReg_floatTo rfl, writesReg_floatTo_double rfl ?_⟩,
    ⟨writesReg_floatTo rfl, writesReg_floatTo rfl, writesReg_floatTo_double rfl ?_⟩,
    ⟨writesReg_floatTo rfl, writesReg_floatTo rfl, writesReg_floatTo_double rfl ?_⟩,
    ⟨writesReg_floatTo rfl, writesReg_floatTo rfl, writesReg_floatTo_double rfl ?_⟩,
    ⟨writesReg_floatTo rfl, writesReg_floatTo rfl, writesReg_floatTo_double rfl ?_⟩,
    ⟨writesReg_floatTo rfl, writesReg_floatTo rfl, writesReg_floatTo_double rfl ?_⟩,
    ⟨writesReg_floatTo rfl, writesReg_floatTo rfl, writesReg_floatTo_double rfl ?_⟩,
    ⟨writesReg_floatTo rfl, writesReg_floatTo rfl, writesReg_floatTo_double rfl ?_⟩,
    ⟨writesReg_floatTo rfl, writesReg_floatTo rfl, writesReg_floatTo_double rfl ?_⟩,
    ⟨writesReg_floatTo rfl, writesReg_floatTo rfl, writesReg_floatTo_double rfl ?_⟩⟩
  all_goals simp only [hd, h1, h2]

/-- Settles O47: every cast answers the float layer's result, and the cast between equal precisions is the identity. -/
theorem floatCastInstructions : Obligations.FloatCastInstructions := by
  intro s rde rs1
  have h1 := floatReg_double s rs1
  refine ⟨⟨writesReg_of_exec rfl, writesReg_of_exec rfl, writesReg_of_exec_eq rfl ?_⟩,
    ⟨writesReg_floatTo rfl, writesReg_floatTo rfl, writesReg_floatTo_double rfl rfl⟩,
    ⟨?_, writesReg_floatTo rfl, writesReg_floatTo_double rfl rfl⟩,
    ⟨writesReg_floatTo rfl, ?_, writesReg_floatTo_double rfl rfl⟩,
    ⟨?_, ?_, writesReg_floatTo_double rfl ?_⟩,
    writesReg_of_exec rfl, writesReg_of_exec rfl, writesReg_of_exec_eq rfl ?_⟩
  · rw [h1]
  · have h := writesReg_floatTo (i := .fcnvF16F16 rde rs1) (s := s) (rde := rde) rfl
    rwa [floatCast_self] at h
  · have h := writesReg_floatTo (i := .fcnvF32F32 rde rs1) (s := s) (rde := rde) rfl
    rwa [floatCast_self] at h
  · have h := writesReg_floatTo (i := .fcnvF64F16 rde rs1) (s := s) (rde := rde) rfl
    rwa [h1] at h
  · have h := writesReg_floatTo (i := .fcnvF64F32 rde rs1) (s := s) (rde := rde) rfl
    rwa [h1] at h
  · rw [floatCast_self, h1]
  · rw [h1, floatNanTest]

end Sys2Proof.Machine

/-! PROOF. Proofs/FloatPatterns: a pattern is a sign and a magnitude (exponent and fraction fields together), and each test
of the float layer is a comparison of the magnitude (R461, R463). -/
namespace Sys2Proof.Machine

/-! ### The sizes of the fields -/

theorem width_eq (p : FloatPrec) : p.width = p.expBits + p.fracBits + 1 := by cases p <;> rfl

/-- The sign bit's weight. -/
theorem two_pow_width_sub_one (p : FloatPrec) : 2 ^ (p.width - 1) = 2 ^ p.expBits * 2 ^ p.fracBits := by
  rw [width_eq, Nat.add_sub_cancel, pow_add]

theorem expMax_add_one (p : FloatPrec) : p.expMax + 1 = 2 ^ p.expBits := Nat.sub_add_cancel Nat.one_le_two_pow

/-- The infinities are one binade below the sign bit. -/
theorem infMagnitude_add (p : FloatPrec) : infMagnitude p + 2 ^ p.fracBits = 2 ^ (p.width - 1) := by
  rw [two_pow_width_sub_one, infMagnitude, ← expMax_add_one, Nat.add_mul, Nat.one_mul]

theorem infMagnitude_lt (p : FloatPrec) : infMagnitude p < 2 ^ (p.width - 1) := by
  have := infMagnitude_add p
  have := Nat.two_pow_pos p.fracBits
  omega

/-- The normal numbers lie between the subnormals and the infinities. -/
theorem two_pow_fracBits_lt_infMagnitude (p : FloatPrec) : 2 ^ p.fracBits < infMagnitude p := by
  have : 1 < p.expMax := by cases p <;> decide
  simpa [infMagnitude] using Nat.mul_lt_mul_of_pos_right this (Nat.two_pow_pos p.fracBits)

/-! ### Sign and magnitude -/

/-- The magnitude of a pattern: its exponent and fraction fields together. -/
def floatMag (p : FloatPrec) (a : BitVec p.width) : Nat := a.toNat % 2 ^ (p.width - 1)

theorem floatMag_lt (p : FloatPrec) (a : BitVec p.width) : floatMag p a < 2 ^ (p.width - 1) :=
  Nat.mod_lt _ (Nat.two_pow_pos _)

theorem floatFrac_eq (p : FloatPrec) (a : BitVec p.width) : floatFrac p a = floatMag p a % 2 ^ p.fracBits := by
  rw [floatFrac, floatMag, two_pow_width_sub_one, Nat.mod_mul_left_mod]

theorem floatExp_eq (p : FloatPrec) (a : BitVec p.width) : floatExp p a = floatMag p a / 2 ^ p.fracBits := by
  rw [floatExp, floatMag, two_pow_width_sub_one, Nat.mul_comm, Nat.mod_mul_right_div_self]

theorem floatMag_eq (p : FloatPrec) (a : BitVec p.width) :
    floatMag p a = floatExp p a * 2 ^ p.fracBits + floatFrac p a := by
  rw [floatExp_eq, floatFrac_eq, Nat.div_add_mod']

theorem floatFrac_lt (p : FloatPrec) (a : BitVec p.width) : floatFrac p a < 2 ^ p.fracBits :=
  Nat.mod_lt _ (Nat.two_pow_pos _)

theorem toNat_floatPattern {p : FloatPrec} (neg : Bool) {mag : Nat} (h : mag < 2 ^ (p.width - 1)) :
    (floatPattern p neg mag).toNat = (if neg then 2 ^ (p.width - 1) else 0) + mag := by
  have hw : 2 ^ p.width = 2 ^ (p.width - 1) + 2 ^ (p.width - 1) := by
    rw [← Nat.two_pow_succ, Nat.sub_add_cancel (by cases p <;> decide)]
  rw [floatPattern, BitVec.toNat_ofNat]
  apply Nat.mod_eq_of_lt
  split <;> omega

theorem floatMag_floatPattern {p : FloatPrec} (neg : Bool) {mag : Nat} (h : mag < 2 ^ (p.width - 1)) :
    floatMag p (floatPattern p neg mag) = mag := by
  rw [floatMag, toNat_floatPattern neg h]
  cases neg <;> simp [Nat.mod_eq_of_lt h]

theorem floatNegative_floatPattern {p : FloatPrec} (neg : Bool) {mag : Nat} (h : mag < 2 ^ (p.width - 1)) :
    floatNegative p (floatPattern p neg mag) = neg := by
  rw [floatNegative, BitVec.msb_eq_decide, toNat_floatPattern neg h]
  cases neg <;> simp [h]

/-- A pattern is that of its sign and its magnitude. -/
theorem floatPattern_floatMag (p : FloatPrec) (a : BitVec p.width) :
    floatPattern p (floatNegative p a) (floatMag p a) = a := by
  apply BitVec.eq_of_toNat_eq
  have hlt := a.isLt
  have hw : 2 ^ p.width = 2 ^ (p.width - 1) + 2 ^ (p.width - 1) := by
    rw [← Nat.two_pow_succ, Nat.sub_add_cancel (by cases p <;> decide)]
  rw [toNat_floatPattern _ (floatMag_lt p a), floatMag, floatNegative, BitVec.msb_eq_decide]
  by_cases h : 2 ^ (p.width - 1) ≤ a.toNat
  · rw [Nat.mod_eq_sub_mod h, Nat.mod_eq_of_lt (by omega)]
    simp [h]
  · rw [Nat.mod_eq_of_lt (by omega)]
    simp [h]

/-! ### The tests as comparisons of the magnitude -/

/-- The patterns of the greatest exponent field are those from the infinities up. -/
theorem floatExp_eq_expMax_iff (p : FloatPrec) (a : BitVec p.width) :
    floatExp p a = p.expMax ↔ infMagnitude p ≤ floatMag p a := by
  have hexp : floatExp p a < p.expMax + 1 := by
    rw [expMax_add_one]
    exact Nat.mod_lt _ (Nat.two_pow_pos _)
  rw [infMagnitude, ← Nat.le_div_iff_mul_le (Nat.two_pow_pos _), ← floatExp_eq]
  omega

theorem floatExp_eq_zero_iff (p : FloatPrec) (a : BitVec p.width) :
    floatExp p a = 0 ↔ floatMag p a < 2 ^ p.fracBits := by
  rw [floatExp_eq, Nat.div_eq_zero_iff_lt (Nat.two_pow_pos _)]

/-- The NaNs are above the infinities (R463). -/
theorem floatIsNan_iff (p : FloatPrec) (a : BitVec p.width) :
    floatIsNan p a = true ↔ infMagnitude p < floatMag p a := by
  have hmag := floatMag_eq p a
  have hexp := floatExp_eq_expMax_iff p a
  simp only [floatIsNan, Bool.and_eq_true, beq_iff_eq, bne_iff_ne]
  constructor
  · rintro ⟨he, hf⟩
    rw [hmag, he, infMagnitude]
    omega
  · intro h
    have he := hexp.mpr h.le
    refine ⟨he, fun hf => ?_⟩
    rw [hmag, he, hf, infMagnitude] at h
    omega

/-- The zeros have magnitude 0. -/
theorem floatIsZero_iff (p : FloatPrec) (a : BitVec p.width) : floatIsZero p a = true ↔ floatMag p a = 0 := by
  have hpos := Nat.two_pow_pos p.fracBits
  simp only [floatIsZero, Bool.and_eq_true, beq_iff_eq]
  rw [floatMag_eq, Nat.add_eq_zero_iff, Nat.mul_eq_zero]
  simp

/-- The subnormals are above zero and below the normal numbers. -/
theorem floatIsSubnormal_iff (p : FloatPrec) (a : BitVec p.width) :
    floatIsSubnormal p a = true ↔ 0 < floatMag p a ∧ floatMag p a < 2 ^ p.fracBits := by
  simp only [floatIsSubnormal, Bool.and_eq_true, beq_iff_eq, bne_iff_ne, floatExp_eq_zero_iff]
  rw [and_comm, floatFrac_eq]
  refine and_congr_left fun h => ?_
  rw [Nat.mod_eq_of_lt h]
  omega

/-! ### What a choice of FLOAT_NUMERICS leaves (log 21) -/

theorem flushOperand_of_not_subnormal {p : FloatPrec} {a : BitVec p.width} (op : FloatOp)
    (h : floatIsSubnormal p a = false) : flushOperand op p a = a := by
  rw [flushOperand, h, Bool.false_and, if_neg Bool.false_ne_true]

theorem flushResult_of_not_subnormal {p : FloatPrec} {a : BitVec p.width} (op : FloatOp)
    (h : floatIsSubnormal p a = false) : flushResult op p a = a := by
  rw [flushResult, h, Bool.false_and, if_neg Bool.false_ne_true]

theorem not_subnormal_iff (p : FloatPrec) (a : BitVec p.width) :
    floatIsSubnormal p a = false ↔ floatMag p a = 0 ∨ 2 ^ p.fracBits ≤ floatMag p a := by
  rw [Bool.eq_false_iff, Ne, floatIsSubnormal_iff]
  omega

theorem not_nan_iff (p : FloatPrec) (a : BitVec p.width) :
    floatIsNan p a = false ↔ floatMag p a ≤ infMagnitude p := by
  rw [Bool.eq_false_iff, Ne, floatIsNan_iff, Nat.not_lt]

theorem not_subnormal_of_nan {p : FloatPrec} {a : BitVec p.width} (h : floatIsNan p a = true) :
    floatIsSubnormal p a = false := by
  have := two_pow_fracBits_lt_infMagnitude p
  rw [floatIsNan_iff] at h
  rw [not_subnormal_iff]
  omega

/-- A zero of either sign is not a subnormal. -/
theorem not_subnormal_floatPattern_zero (p : FloatPrec) (neg : Bool) :
    floatIsSubnormal p (floatPattern p neg 0) = false := by
  rw [not_subnormal_iff, floatMag_floatPattern neg (Nat.two_pow_pos _)]
  exact .inl rfl

/-- What stands in for a NaN's payload is a NaN (log 22). -/
theorem floatIsNan_nanPattern (p : FloatPrec) (bits : Word) : floatIsNan p (nanPattern p bits) = true := by
  have hinf := infMagnitude_add p
  have hfrac := Nat.mod_lt bits.toNat (Nat.two_pow_pos p.fracBits)
  have hone : 1 < 2 ^ p.fracBits := by cases p <;> decide
  rw [floatIsNan_iff, nanPattern, floatMag_floatPattern]
  · split <;> omega
  · split <;> omega

/-! ### The value of a pattern by its magnitude -/

theorem floatValue_of_nan {p : FloatPrec} {a : BitVec p.width} (h : floatIsNan p a = true) : floatValue p a = .nan := by
  simp only [floatIsNan, Bool.and_eq_true, beq_iff_eq, bne_iff_ne] at h
  obtain ⟨he, hf⟩ := h
  rw [floatValue, if_pos he, if_neg hf]

/-- A finite pattern has an exponent and a significand: a normal one has the hidden bit, a subnormal one the least
exponent (R461). -/
theorem floatValue_of_lt_infMagnitude {p : FloatPrec} {a : BitVec p.width} (h : floatMag p a < infMagnitude p) :
    ∃ t m : Nat, floatValue p a = .fin (floatNegative p a) m (p.ulpMin + t) ∧ floatMag p a = t * 2 ^ p.fracBits + m ∧
      m < 2 ^ (p.fracBits + 1) ∧ (t = 0 ∨ 2 ^ p.fracBits ≤ m) := by
  have hfrac := floatFrac_lt p a
  have hmag := floatMag_eq p a
  have hmax : floatExp p a ≠ p.expMax := by
    rw [Ne, floatExp_eq_expMax_iff]
    omega
  rw [floatValue, if_neg hmax, Nat.pow_succ]
  by_cases hzero : floatExp p a = 0
  · refine ⟨0, floatFrac p a, ?_, ?_, by omega, .inl rfl⟩
    · rw [if_pos hzero, Nat.cast_zero, add_zero]
    · rw [hmag, hzero]
  · refine ⟨floatExp p a - 1, 2 ^ p.fracBits + floatFrac p a, if_neg hzero, ?_, by omega, .inr (by omega)⟩
    rw [hmag, ← Nat.add_assoc, ← Nat.succ_mul, Nat.succ_eq_add_one, Nat.sub_add_cancel (by omega)]

/-- The exponent and significand fields of a magnitude whose significand has the hidden bit, or the least exponent. -/
theorem floatValue_floatPattern {p : FloatPrec} (neg : Bool) {t m : Nat} (hm : m < 2 ^ (p.fracBits + 1))
    (ht : t = 0 ∨ 2 ^ p.fracBits ≤ m) (h : t * 2 ^ p.fracBits + m < infMagnitude p) :
    floatValue p (floatPattern p neg (t * 2 ^ p.fracBits + m)) = .fin neg m (p.ulpMin + t) := by
  have hlt := h.trans (infMagnitude_lt p)
  have hmag := floatMag_floatPattern (p := p) neg hlt
  have hneg := floatNegative_floatPattern (p := p) neg hlt
  obtain ⟨t', m', hval, hmag', hm', ht'⟩ := floatValue_of_lt_infMagnitude (p := p) (hmag.symm ▸ h)
  have hpos := Nat.two_pow_pos p.fracBits
  rw [hmag] at hmag'
  rw [Nat.pow_succ] at hm hm'
  have htt : t = t' := by
    rcases Nat.lt_trichotomy t t' with hlt | heq | hgt
    · have := Nat.mul_le_mul_right (2 ^ p.fracBits) (Nat.succ_le_of_lt hlt)
      rw [Nat.succ_mul] at this
      omega
    · exact heq
    · have := Nat.mul_le_mul_right (2 ^ p.fracBits) (Nat.succ_le_of_lt hgt)
      rw [Nat.succ_mul] at this
      omega
  subst htt
  rw [hval, hneg, Nat.add_left_cancel hmag']

/-- A value in 1 place: a pattern that is finite. -/
theorem lt_infMagnitude_of_fin {p : FloatPrec} {a : BitVec p.width} {neg : Bool} {m : Nat} {e : Int}
    (h : floatValue p a = .fin neg m e) : floatMag p a < infMagnitude p := by
  by_contra hge
  have hexp := (floatExp_eq_expMax_iff p a).mpr (Nat.not_lt.mp hge)
  rw [floatValue, if_pos hexp] at h
  split at h <;> cases h

end Sys2Proof.Machine

/-! PROOF. Proofs/FloatValues: the rational number that an exact value is, and what the exact operations do to it
(R461, R465). -/
namespace Sys2Proof.Machine

/-! ### The rational number of a value -/

/-- A value is finite and is the rational number `q`. -/
def FloatVal.Is (v : FloatVal) (q : ℚ) : Prop :=
  match v with
  | .fin neg mant exp => q = (signedMag neg mant : ℚ) * (2 : ℚ) ^ exp
  | .inf _ => False
  | .nan => False

theorem signedMag_cast (neg : Bool) (m : Nat) : (signedMag neg m : ℚ) = (if neg then -1 else 1) * (m : ℚ) := by
  cases neg <;> simp [signedMag]

theorem FloatVal.is_fin {neg : Bool} {m : Nat} {e : Int} {q : ℚ} :
    (FloatVal.fin neg m e).Is q ↔ q = (signedMag neg m : ℚ) * (2 : ℚ) ^ e := Iff.rfl

/-- The statements' reading of a pattern is the value's. -/
theorem floatIs_iff (p : FloatPrec) (a : BitVec p.width) (q : ℚ) : FloatIs p a q ↔ (floatValue p a).Is q := by
  unfold FloatIs
  cases floatValue p a with
  | fin neg m e => rw [FloatVal.is_fin, signedMag_cast]
  | inf neg => exact Iff.rfl
  | nan => exact Iff.rfl

/-- A value that is a number is a finite one. -/
theorem FloatVal.Is.exists_fin {v : FloatVal} {q : ℚ} (h : v.Is q) :
    ∃ neg m e, v = .fin neg m e ∧ q = (signedMag neg m : ℚ) * (2 : ℚ) ^ e := by
  cases v with
  | fin neg m e => exact ⟨neg, m, e, rfl, h⟩
  | inf neg => exact h.elim
  | nan => exact h.elim

theorem signedMag_eq_zero {neg : Bool} {m : Nat} : signedMag neg m = 0 ↔ m = 0 := by
  cases neg <;> simp [signedMag]

/-- A finite value is zero exactly when its significand is. -/
theorem FloatVal.Is.eq_zero_iff {neg : Bool} {m : Nat} {e : Int} {q : ℚ} (h : (FloatVal.fin neg m e).Is q) :
    q = 0 ↔ m = 0 := by
  rw [FloatVal.is_fin.mp h, mul_eq_zero, or_iff_left (zpow_ne_zero e two_ne_zero), Int.cast_eq_zero, signedMag_eq_zero]

/-! ### Powers of two -/

theorem two_zpow_pos (k : Int) : (0 : ℚ) < 2 ^ k := zpow_pos two_pos k

theorem two_zpow_add (j k : Int) : (2 : ℚ) ^ (j + k) = 2 ^ j * 2 ^ k := zpow_add₀ two_ne_zero j k

/-- A power of two as the quotient of two natural ones, of which one is 1. -/
theorem two_zpow_eq_div (k : Int) : (2 : ℚ) ^ k = ((2 ^ k.toNat : Nat) : ℚ) / ((2 ^ (-k).toNat : Nat) : ℚ) := by
  have hk : k = (k.toNat : Int) - ((-k).toNat : Int) := (Int.toNat_sub_toNat_neg k).symm
  conv_lhs => rw [hk, zpow_sub₀ two_ne_zero, zpow_natCast, zpow_natCast]
  push_cast
  rfl

/-- A value at an exponent that is at most its own is the same number (R465). -/
theorem scaledTo_mul {g e : Int} (neg : Bool) (m : Nat) (h : g ≤ e) :
    (scaledTo g neg m e : ℚ) * 2 ^ g = (signedMag neg m : ℚ) * 2 ^ e := by
  have hexp : e = (e - g).toNat + g := by omega
  rw [scaledTo, signedMag_cast, signedMag_cast, Nat.cast_mul, Nat.cast_pow, Nat.cast_ofNat, mul_assoc, mul_assoc,
    mul_assoc, ← zpow_natCast, ← two_zpow_add, ← hexp]

/-! ### Comparisons -/

/-- Equality of values is that of the numbers (R460). -/
theorem eqValues_iff {x y : FloatVal} {a b : ℚ} (hx : x.Is a) (hy : y.Is b) : eqValues x y = true ↔ a = b := by
  obtain ⟨s, m, e, rfl, rfl⟩ := hx.exists_fin
  obtain ⟨t, n, f, rfl, rfl⟩ := hy.exists_fin
  rw [← scaledTo_mul s m (min_le_left e f), ← scaledTo_mul t n (min_le_right e f),
    mul_left_inj' (two_zpow_pos _).ne', Int.cast_inj]
  exact decide_eq_true_iff

/-- Less-than of values is that of the numbers (R460). -/
theorem ltValues_iff {x y : FloatVal} {a b : ℚ} (hx : x.Is a) (hy : y.Is b) : ltValues x y = true ↔ a < b := by
  obtain ⟨s, m, e, rfl, rfl⟩ := hx.exists_fin
  obtain ⟨t, n, f, rfl, rfl⟩ := hy.exists_fin
  rw [← scaledTo_mul s m (min_le_left e f), ← scaledTo_mul t n (min_le_right e f),
    mul_lt_mul_iff_left₀ (two_zpow_pos _), Int.cast_lt]
  exact decide_eq_true_iff

theorem eqValues_of_nan {x y : FloatVal} (h : x = .nan ∨ y = .nan) : eqValues x y = false := by
  rcases h with rfl | rfl
  · rfl
  · cases x <;> rfl

theorem ltValues_of_nan {x y : FloatVal} (h : x = .nan ∨ y = .nan) : ltValues x y = false := by
  rcases h with rfl | rfl
  · rfl
  · cases x <;> rfl

/-! ### Exact operations -/

theorem signedMag_natAbs (v : Int) : signedMag (decide (v < 0)) v.natAbs = v := by
  by_cases h : v < 0
  · simp only [signedMag, h, decide_true, if_true]
    omega
  · simp only [signedMag, h, decide_false, Bool.false_eq_true, if_false]
    omega

/-- An integer is the value of its sign and absolute value. -/
theorem FloatVal.is_ofInt (v : Int) : (FloatVal.fin (decide (v < 0)) v.natAbs 0).Is v := by
  rw [FloatVal.is_fin, signedMag_natAbs, zpow_zero, mul_one]

theorem signedMag_not (neg : Bool) (m : Nat) : signedMag (!neg) m = -signedMag neg m := by
  cases neg <;> simp [signedMag]

theorem signedMag_xor_mul (s t : Bool) (m n : Nat) : signedMag (s ^^ t) (m * n) = signedMag s m * signedMag t n := by
  cases s <;> cases t <;> simp [signedMag]

/-- The exact sum is the sum of the numbers (R465). -/
theorem addValues_is {mode : RoundingMode} {x y : FloatVal} {a b : ℚ} (hx : x.Is a) (hy : y.Is b) :
    (addValues mode x y).Is (a + b) := by
  obtain ⟨s, m, e, rfl, rfl⟩ := hx.exists_fin
  obtain ⟨t, n, f, rfl, rfl⟩ := hy.exists_fin
  rw [← scaledTo_mul s m (min_le_left e f), ← scaledTo_mul t n (min_le_right e f), ← add_mul, ← Int.cast_add]
  rw [addValues]
  by_cases hsum : scaledTo (min e f) s m e + scaledTo (min e f) t n f = 0
  · rw [if_pos hsum, hsum, FloatVal.is_fin, signedMag_eq_zero.mpr rfl]
  · rw [if_neg hsum, FloatVal.is_fin, signedMag_natAbs]

/-- The value of opposite sign is the opposite number. -/
theorem negValue_is {x : FloatVal} {a : ℚ} (hx : x.Is a) : (negValue x).Is (-a) := by
  obtain ⟨s, m, e, rfl, rfl⟩ := hx.exists_fin
  rw [negValue, FloatVal.is_fin, signedMag_not, Int.cast_neg, neg_mul]

/-- The exact product is the product of the numbers (R465). -/
theorem mulValues_is {x y : FloatVal} {a b : ℚ} (hx : x.Is a) (hy : y.Is b) : (mulValues x y).Is (a * b) := by
  obtain ⟨s, m, e, rfl, rfl⟩ := hx.exists_fin
  obtain ⟨t, n, f, rfl, rfl⟩ := hy.exists_fin
  rw [mulValues, FloatVal.is_fin, signedMag_xor_mul, two_zpow_add, Int.cast_mul, mul_mul_mul_comm]

/-! ### NaN operands -/

theorem addValues_of_nan {mode : RoundingMode} {x y : FloatVal} (h : x = .nan ∨ y = .nan) :
    addValues mode x y = .nan := by
  rcases h with rfl | rfl
  · rfl
  · cases x <;> rfl

theorem mulValues_of_nan {x y : FloatVal} (h : x = .nan ∨ y = .nan) : mulValues x y = .nan := by
  rcases h with rfl | rfl
  · rfl
  · cases x <;> rfl

end Sys2Proof.Machine

/-! PROOF. Proofs/FloatTests: the comparisons and tests, minimum and maximum, the sign operations and NaN operands
(R401, R404, R405, R412, R413, R460, R463, R465). -/
namespace Sys2Proof.Machine

/-! ### Operands as an operation reads them -/

theorem opValue_of_not_subnormal {p : FloatPrec} {a : BitVec p.width} (op : FloatOp)
    (h : floatIsSubnormal p a = false) : opValue op p a = floatValue p a := by
  rw [opValue, flushOperand_of_not_subnormal op h]

/-- A plain finite operand is read as the number it is (log 21). -/
theorem opValue_is {p : FloatPrec} {a : BitVec p.width} {q : ℚ} (op : FloatOp) (h : FloatIs p a q)
    (hplain : FloatPlain p a) : (opValue op p a).Is q := by
  rw [opValue_of_not_subnormal op hplain.1]
  exact (floatIs_iff p a q).mp h

/-- A NaN operand is read as one. -/
theorem opValue_of_nan {p : FloatPrec} {a : BitVec p.width} (op : FloatOp) (h : floatIsNan p a = true) :
    opValue op p a = .nan := by
  rw [opValue_of_not_subnormal op (not_subnormal_of_nan h), floatValue_of_nan h]

/-- One of two NaN operands makes one of the values NaN. -/
theorem opValue_or_nan {p : FloatPrec} {a b : BitVec p.width} (op : FloatOp)
    (h : floatIsNan p a = true ∨ floatIsNan p b = true) : opValue op p a = .nan ∨ opValue op p b = .nan :=
  h.imp (opValue_of_nan op) (opValue_of_nan op)

/-! ### Comparisons (R401, R460) -/

/-- Settles O48: the float compares set the flags, which compare the values. -/
theorem floatCompareInstructions : Obligations.FloatCompareInstructions := by
  refine ⟨fun s rde rs1 => ⟨writesFlags_of_exec rfl, writesFlags_of_exec rfl, writesFlags_of_exec rfl⟩,
    fun p x y qx qy hx hy hpx hpy => ?_, fun p x y hnan => ?_⟩
  · have hvx := opValue_is .fcmp hx hpx
    have hvy := opValue_is .fcmp hy hpy
    exact ⟨eqValues_iff hvx hvy, ltValues_iff hvx hvy⟩
  · have hval := opValue_or_nan .fcmp hnan
    exact ⟨eqValues_of_nan hval, ltValues_of_nan hval⟩

/-- A zero of either sign is a finite value, and the only one that is 0. -/
theorem floatIsZero_eq_decide {p : FloatPrec} {a : BitVec p.width} {q : ℚ} (h : FloatIs p a q) :
    floatIsZero p a = decide (q = 0) := by
  have hval := (floatIs_iff p a q).mp h
  obtain ⟨neg, m, e, hfin, -⟩ := hval.exists_fin
  obtain ⟨t, m', hval', hmag, -, ht⟩ := floatValue_of_lt_infMagnitude (lt_infMagnitude_of_fin hfin)
  rw [hval'] at hval
  have hpos := Nat.two_pow_pos p.fracBits
  rw [Bool.eq_iff_iff, floatIsZero_iff, decide_eq_true_iff, hval.eq_zero_iff, hmag, Nat.add_eq_zero_iff, Nat.mul_eq_zero]
  omega

/-- Neither an infinity nor a NaN reads as a zero. -/
theorem floatReadsZero_of_expMax {p : FloatPrec} {a : BitVec p.width} (h : floatExp p a = p.expMax) :
    floatReadsZero p a = false := by
  have hne : (floatExp p a == 0) = false := by
    rw [h]
    cases p <;> decide
  rw [floatReadsZero, floatIsZero, floatIsSubnormal, hne, Bool.false_and, Bool.false_and, Bool.false_and, Bool.or_self]

/-- Settles O57: each test puts its answer through the parameter, and the answers compare the values. -/
theorem floatTests : Obligations.FloatTests := by
  intro p x y
  refine ⟨fun qa qb ha hb hpa hpb => ?_, fun hnan => ?_, ?_, fun qa ha => ?_, fun hexp => ?_, ?_⟩
  · have hva := opValue_is .fcmp ha hpa
    have hvb := opValue_is .fcmp hb hpb
    have heq : floatEquals p x y = decide (qa = qb) := by
      rw [Bool.eq_iff_iff, decide_eq_true_iff]
      exact eqValues_iff hva hvb
    have hlt : floatLess p x y = decide (qa < qb) := by
      rw [Bool.eq_iff_iff, decide_eq_true_iff]
      exact ltValues_iff hva hvb
    rw [floatEqualTest, floatLessTest, heq, hlt]
    exact ⟨rfl, rfl⟩
  · have hval := opValue_or_nan .fcmp hnan
    exact ⟨congrArg _ (eqValues_of_nan hval), congrArg _ (ltValues_of_nan hval)⟩
  · have hpos : 0 < p.width := by cases p <;> decide
    rw [floatSignTest, floatNegative, floatOperand, BitVec.msb_eq_getLsbD_last, BitVec.getLsbD_extractLsb', Nat.zero_add,
      decide_eq_true (by omega), Bool.true_and]
  · rw [floatZeroTest, floatReadsZero, floatOperand, floatIsZero_eq_decide ha]
  · rw [floatZeroTest, floatOperand, floatReadsZero_of_expMax hexp]
  · simp only [floatNanTest, floatIsNan, Bool.and_eq_true, beq_iff_eq, bne_iff_ne]

/-! ### Minimum and maximum (R412, R413) -/

/-- On two plain numbers of different value the choice is made by the comparison (log 23). -/
theorem floatSelect_of_ne {op : FloatOp} {takeFirst : FloatVal → FloatVal → Bool} {p : FloatPrec} {a b : BitVec p.width}
    {qa qb : ℚ} (ha : FloatIs p a qa) (hb : FloatIs p b qb) (hpa : FloatPlain p a) (hpb : FloatPlain p b) (hne : qa ≠ qb) :
    floatSelect op takeFirst p a b = if takeFirst (floatValue p a) (floatValue p b) then a else b := by
  obtain ⟨hsa, hna⟩ := hpa
  obtain ⟨hsb, hnb⟩ := hpb
  have hzeros : (floatIsZero p a && floatIsZero p b) = false := by
    rw [floatIsZero_eq_decide ha, floatIsZero_eq_decide hb, Bool.and_eq_false_iff, decide_eq_false_iff_not,
      decide_eq_false_iff_not]
    by_contra h
    push Not at h
    exact hne (h.1.trans h.2.symm)
  rw [floatSelect, flushOperand_of_not_subnormal op hsa, flushOperand_of_not_subnormal op hsb]
  simp only [hna, hnb, hzeros, Bool.or_self, Bool.false_eq_true, if_false]
  split
  · exact flushResult_of_not_subnormal op hsa
  · exact flushResult_of_not_subnormal op hsb

/-- Settles O55: less-than of the values decides, in either order of the operands. -/
theorem floatMinMax : Obligations.FloatMinMax := by
  intro p a b qa qb ha hb hpa hpb hlt
  have hva := (floatIs_iff p a qa).mp ha
  have hvb := (floatIs_iff p b qb).mp hb
  have hab : ltValues (floatValue p a) (floatValue p b) = true := (ltValues_iff hva hvb).mpr hlt
  have hba : ltValues (floatValue p b) (floatValue p a) ≠ true := fun h => hlt.not_gt ((ltValues_iff hvb hva).mp h)
  refine ⟨?_, ?_, ?_, ?_⟩
  · rw [floatMin, floatSelect_of_ne ha hb hpa hpb hlt.ne, if_pos hab]
  · rw [floatMin, floatSelect_of_ne hb ha hpb hpa hlt.ne', if_neg hba]
  · rw [floatMax, floatSelect_of_ne ha hb hpa hpb hlt.ne, if_neg hba]
  · rw [floatMax, floatSelect_of_ne hb ha hpb hpa hlt.ne', if_pos hab]

/-! ### NaN operands (R465; log 22) -/

/-- A NaN result is not flushed. -/
theorem floatIsNan_opResult_nan (op : FloatOp) (p : FloatPrec) (bits : Word) :
    floatIsNan p (opResult op p bits .nan) = true := by
  rw [opResult, roundValue, flushResult_of_not_subnormal op (not_subnormal_of_nan (floatIsNan_nanPattern p bits))]
  exact floatIsNan_nanPattern p bits

/-- A division with a NaN operand gives a NaN. -/
theorem floatIsNan_floatDiv {p : FloatPrec} {a b : BitVec p.width}
    (h : floatIsNan p a = true ∨ floatIsNan p b = true) : floatIsNan p (floatDiv p a b) = true := by
  rcases opValue_or_nan .fdiv h with ha | hb
  · simp only [floatDiv, ha]
    exact floatIsNan_nanPattern p _
  · simp only [floatDiv, hb]
    cases opValue .fdiv p a <;> exact floatIsNan_nanPattern p _

/-- A multiply-add whose product has a NaN factor has a NaN addend, whether or not the product is rounded. -/
theorem floatIsNan_floatFma {p : FloatPrec} {dest a b : BitVec p.width}
    (h : floatIsNan p dest = true ∨ floatIsNan p a = true ∨ floatIsNan p b = true) :
    floatIsNan p (floatFma p dest a b) = true := by
  rw [floatFma]
  rcases h with hd | hab
  · simp only [addValues_of_nan (.inl (opValue_of_nan .fma hd))]
    exact floatIsNan_opResult_nan .fma p _
  · simp only [mulValues_of_nan (opValue_or_nan .fma hab), opValue_of_nan .fma (floatIsNan_opResult_nan .fma p _),
      ite_self, addValues_of_nan (.inr rfl)]
    exact floatIsNan_opResult_nan .fma p _

/-- Settles O52: a NaN operand makes the exact value a NaN, and its pattern is one. -/
theorem floatNanPropagation : Obligations.FloatNanPropagation := by
  refine ⟨fun p a h => ?_, fun p a b h => ?_, fun p dest a b h => floatIsNan_floatFma h⟩
  · have hflush : ∀ op, flushOperand op p a = a := fun op =>
      flushOperand_of_not_subnormal op (not_subnormal_of_nan h)
    refine ⟨?_, ?_, ?_, ?_⟩
    · simp only [floatNeg, hflush, h, if_true]
      exact floatIsNan_nanPattern p _
    · simp only [floatAbs, hflush, h, if_true]
      exact floatIsNan_nanPattern p _
    · rw [floatSqrt, opValue_of_nan .fsqrt h]
      exact floatIsNan_opResult_nan .fsqrt p _
    · rw [floatCeil, opValue_of_nan .fsat h]
      exact floatIsNan_opResult_nan .fsat p _
  · refine ⟨?_, ?_, ?_, floatIsNan_floatDiv h⟩
    · rw [floatAdd, addValues_of_nan (opValue_or_nan .fadd h)]
      exact floatIsNan_opResult_nan .fadd p _
    · have hneg : opValue .fsub p a = .nan ∨ negValue (opValue .fsub p b) = .nan :=
        (opValue_or_nan .fsub h).imp_right fun hb => by rw [hb, negValue]
      rw [floatSub, addValues_of_nan hneg]
      exact floatIsNan_opResult_nan .fsub p _
    · rw [floatMul, mulValues_of_nan (opValue_or_nan .fmul h)]
      exact floatIsNan_opResult_nan .fmul p _

/-! ### The sign operations (R404, R405) -/

/-- The pattern of -0 is the sign bit alone. -/
theorem floatPattern_true_zero (p : FloatPrec) : floatPattern p true 0 = BitVec.twoPow p.width (p.width - 1) := by
  apply BitVec.eq_of_toNat_eq
  rw [toNat_floatPattern true (Nat.two_pow_pos _), if_pos rfl, Nat.add_zero, BitVec.toNat_twoPow_of_lt]
  cases p <;> decide

theorem getLsbD_signBit {p : FloatPrec} {k : Nat} (hk : k + 1 < p.width) : (floatPattern p true 0).getLsbD k = false := by
  rw [floatPattern_true_zero, BitVec.getLsbD_twoPow, Bool.and_eq_false_iff, decide_eq_false_iff_not,
    decide_eq_false_iff_not]
  omega

theorem msb_signBit (p : FloatPrec) : (floatPattern p true 0).msb = true := by
  cases p <;> decide

/-- The bits of an operand as an operation reads it: the sign stays, and the other bits of a flushed subnormal are 0
(log 21). -/
theorem flushOperand_bits (op : FloatOp) (p : FloatPrec) (a : BitVec p.width) :
    (flushOperand op p a).msb = a.msb ∧ ∀ k, k + 1 < p.width → (flushOperand op p a).getLsbD k =
      if floatIsSubnormal p a = true ∧ Config.flushesOperands op p = true then false else a.getLsbD k := by
  rw [flushOperand]
  by_cases h : floatIsSubnormal p a = true ∧ Config.flushesOperands op p = true
  · rw [if_pos (by simpa using h)]
    refine ⟨floatNegative_floatPattern _ (Nat.two_pow_pos _), fun k hk => ?_⟩
    rw [if_pos h]
    cases floatNegative p a with
    | true => exact getLsbD_signBit hk
    | false => simp [floatPattern]
  · rw [if_neg (by simpa using h)]
    exact ⟨rfl, fun k _ => (if_neg h).symm⟩

/-- An operand that is not a NaN is not read as one. -/
theorem floatIsNan_flushOperand {p : FloatPrec} {a : BitVec p.width} (op : FloatOp) (h : floatIsNan p a = false) :
    floatIsNan p (flushOperand op p a) = false := by
  rw [flushOperand]
  split
  · rw [not_nan_iff, floatMag_floatPattern _ (Nat.two_pow_pos _)]
    exact Nat.zero_le _
  · exact h

theorem floatNeg_of_not_nan {p : FloatPrec} {a : BitVec p.width} (h : floatIsNan p a = false) :
    floatNeg p a = flushOperand .fneg p a ^^^ floatPattern p true 0 := by
  rw [floatNeg, floatIsNan_flushOperand .fneg h]
  exact if_neg Bool.false_ne_true

theorem floatAbs_of_not_nan {p : FloatPrec} {a : BitVec p.width} (h : floatIsNan p a = false) :
    floatAbs p a = flushOperand .fabs p a &&& ~~~floatPattern p true 0 := by
  rw [floatAbs, floatIsNan_flushOperand .fabs h]
  exact if_neg Bool.false_ne_true

/-- The bits of a negated or absolute pattern. -/
theorem signOperations_bits {p : FloatPrec} {a : BitVec p.width} (h : floatIsNan p a = false) :
    let kept := fun op k => if floatIsSubnormal p a = true ∧ Config.flushesOperands op p = true then false else a.getLsbD k
    (floatNeg p a).msb = !a.msb ∧ (floatAbs p a).msb = false ∧
    ∀ k, k + 1 < p.width → (floatNeg p a).getLsbD k = kept .fneg k ∧ (floatAbs p a).getLsbD k = kept .fabs k := by
  obtain ⟨hnegMsb, hnegBits⟩ := flushOperand_bits .fneg p a
  obtain ⟨habsMsb, habsBits⟩ := flushOperand_bits .fabs p a
  rw [floatNeg_of_not_nan h, floatAbs_of_not_nan h]
  refine ⟨?_, ?_, fun k hk => ⟨?_, ?_⟩⟩
  · rw [BitVec.msb_xor, hnegMsb, msb_signBit, Bool.xor_true]
  · rw [BitVec.msb_and, BitVec.msb_not, msb_signBit, Bool.not_true, Bool.and_false, Bool.and_false]
  · rw [BitVec.getLsbD_xor, hnegBits k hk, getLsbD_signBit hk, Bool.xor_false]
  · rw [BitVec.getLsbD_and, BitVec.getLsbD_not, habsBits k hk, getLsbD_signBit hk, Bool.not_false,
      decide_eq_true (by omega), Bool.and_self, Bool.and_true]

/-- Patterns that agree below the sign bit have one magnitude. -/
theorem floatMag_congr {p : FloatPrec} {a b : BitVec p.width} (h : ∀ k, k + 1 < p.width → b.getLsbD k = a.getLsbD k) :
    floatMag p b = floatMag p a := by
  apply Nat.eq_of_testBit_eq
  intro k
  rw [floatMag, floatMag, Nat.testBit_mod_two_pow, Nat.testBit_mod_two_pow]
  by_cases hk : k + 1 < p.width
  · rw [← BitVec.getLsbD, ← BitVec.getLsbD, h k hk]
  · rw [decide_eq_false (by omega), Bool.false_and, Bool.false_and]

/-- The value of a pattern follows from its sign and its magnitude. -/
theorem floatValue_eq_of_mag {p : FloatPrec} {a b : BitVec p.width} {neg : Bool} {m : Nat} {e : Int}
    (ha : floatValue p a = .fin neg m e) (h : floatMag p b = floatMag p a) :
    floatValue p b = .fin (floatNegative p b) m e ∧ neg = floatNegative p a := by
  have hexp : floatExp p b = floatExp p a := by rw [floatExp_eq, floatExp_eq, h]
  have hfrac : floatFrac p b = floatFrac p a := by rw [floatFrac_eq, floatFrac_eq, h]
  rw [floatValue] at ha ⊢
  rw [hexp, hfrac]
  split_ifs at ha ⊢ with hmax hzero
  · injection ha with hneg hm he
    exact ⟨by rw [hm, he], hneg.symm⟩
  · injection ha with hneg hm he
    exact ⟨by rw [hm, he], hneg.symm⟩

/-- Settles O56: the sign bit is flipped or cleared, so the value is negated or made absolute. -/
theorem floatSignOperations : Obligations.FloatSignOperations := by
  refine ⟨fun p a h => signOperations_bits h, fun p a q ha hplain => ?_⟩
  obtain ⟨hsub, hnan⟩ := hplain
  obtain ⟨hnegMsb, habsMsb, hbits⟩ := signOperations_bits hnan
  obtain ⟨neg, m, e, hval, rfl⟩ := ((floatIs_iff p a q).mp ha).exists_fin
  have hkept : ∀ op k, (if floatIsSubnormal p a = true ∧ Config.flushesOperands op p = true then false
      else a.getLsbD k) = a.getLsbD k := fun op k => if_neg fun h => by simp [hsub] at h
  obtain ⟨hvneg, hs⟩ := floatValue_eq_of_mag hval (floatMag_congr fun k hk => (hbits k hk).1.trans (hkept _ k))
  obtain ⟨hvabs, -⟩ := floatValue_eq_of_mag hval (floatMag_congr fun k hk => (hbits k hk).2.trans (hkept _ k))
  rw [floatIs_iff, floatIs_iff, hvneg, hvabs, floatNegative, floatNegative, hnegMsb, habsMsb]
  refine ⟨?_, ?_⟩
  · rw [FloatVal.is_fin, hs, floatNegative, signedMag_not, Int.cast_neg, neg_mul]
  · rw [FloatVal.is_fin, abs_mul, abs_of_pos (two_zpow_pos e)]
    congr 1
    cases neg <;> simp [signedMag]

end Sys2Proof.Machine

/-! PROOF. Proofs/FloatRounding: a number that a precision has is rounded to its own pattern, whatever the rounding
direction; this is where the exact results of the operations and of the casts come from (R465, R468; log 21). -/
namespace Sys2Proof.Machine

/-! ### The binade of a quotient -/

/-- The floor of the base-2 logarithm is the exponent of the binade that the quotient lies in. -/
theorem floorLog2_binade {n d : Nat} (hn : n ≠ 0) (hd : d ≠ 0) :
    (2 : ℚ) ^ floorLog2 n d ≤ (n : ℚ) / d ∧ (n : ℚ) / d < 2 ^ (floorLog2 n d + 1) := by
  have hdpos : (0 : ℚ) < d := by exact_mod_cast Nat.pos_of_ne_zero hd
  have hnlow : (2 : ℚ) ^ (n.log2 : Int) ≤ n := by exact_mod_cast Nat.log2_self_le hn
  have hnhigh : (n : ℚ) < 2 ^ ((n.log2 : Int) + 1) := by exact_mod_cast Nat.lt_log2_self
  have hdlow : (2 : ℚ) ^ (d.log2 : Int) ≤ d := by exact_mod_cast Nat.log2_self_le hd
  have hdhigh : (d : ℚ) < 2 ^ ((d.log2 : Int) + 1) := by exact_mod_cast Nat.lt_log2_self
  have htest : ∀ k : Int, d * 2 ^ k.toNat ≤ n * 2 ^ (-k).toNat ↔ (2 : ℚ) ^ k ≤ (n : ℚ) / d := by
    intro k
    have hpos : (0 : ℚ) < ((2 ^ (-k).toNat : Nat) : ℚ) := by exact_mod_cast Nat.two_pow_pos _
    rw [two_zpow_eq_div, div_le_div_iff₀ hpos hdpos, mul_comm]
    exact_mod_cast Iff.rfl
  rw [floorLog2]
  by_cases h : d * 2 ^ ((n.log2 : Int) - d.log2).toNat ≤ n * 2 ^ (-((n.log2 : Int) - d.log2)).toNat
  · rw [if_pos h]
    refine ⟨(htest _).mp h, ?_⟩
    rw [div_lt_iff₀ hdpos]
    calc (n : ℚ) < 2 ^ ((n.log2 : Int) + 1) := hnhigh
      _ = 2 ^ ((n.log2 : Int) - d.log2 + 1) * 2 ^ (d.log2 : Int) := by rw [← two_zpow_add]; congr 1; omega
      _ ≤ 2 ^ ((n.log2 : Int) - d.log2 + 1) * d := mul_le_mul_of_nonneg_left hdlow (two_zpow_pos _).le
  · rw [if_neg h, Int.sub_add_cancel]
    refine ⟨?_, not_le.mp fun hle => h ((htest _).mpr hle)⟩
    rw [le_div_iff₀ hdpos]
    calc (2 : ℚ) ^ ((n.log2 : Int) - d.log2 - 1) * d
        ≤ 2 ^ ((n.log2 : Int) - d.log2 - 1) * 2 ^ ((d.log2 : Int) + 1) :=
          mul_le_mul_of_nonneg_left hdhigh.le (two_zpow_pos _).le
      _ = 2 ^ (n.log2 : Int) := by rw [← two_zpow_add]; congr 1; omega
      _ ≤ n := hnlow

/-- A number below one power of two and not below another: the exponents are so ordered. -/
theorem exponent_lt_of_le_of_lt {x : ℚ} {j k : Int} (hj : (2 : ℚ) ^ j ≤ x) (hk : x < 2 ^ k) : j < k :=
  (zpow_lt_zpow_iff_right₀ one_lt_two).mp (hj.trans_lt hk)

/-! ### Rounding a number that the precision has -/

section Exact

variable {p : FloatPrec} {n d N t : Nat} {e : Int}

/-- The last place of a quotient that is a significand at a place of the precision is that place. -/
theorem roundExp_of_exact (hn : n ≠ 0) (hd : d ≠ 0) (hN : N < 2 ^ (p.fracBits + 1)) (ht : t = 0 ∨ 2 ^ p.fracBits ≤ N)
    (hx : (n : ℚ) / d * 2 ^ e = N * 2 ^ (p.ulpMin + t)) : roundExp p n d e = p.ulpMin + t := by
  obtain ⟨hlow, hhigh⟩ := floorLog2_binade hn hd
  have hlow' : (2 : ℚ) ^ (floorLog2 n d + e) ≤ N * 2 ^ (p.ulpMin + t) := by
    rw [two_zpow_add, ← hx]
    exact mul_le_mul_of_nonneg_right hlow (two_zpow_pos e).le
  have hhigh' : (N : ℚ) * 2 ^ (p.ulpMin + t) < 2 ^ (floorLog2 n d + 1 + e) := by
    rw [← hx, two_zpow_add]
    exact mul_lt_mul_of_pos_right hhigh (two_zpow_pos e)
  have habove : floorLog2 n d + e < p.fracBits + 1 + (p.ulpMin + t) := by
    have hNlt : (N : ℚ) < 2 ^ ((p.fracBits : Int) + 1) := by exact_mod_cast hN
    refine exponent_lt_of_le_of_lt hlow' ?_
    rw [two_zpow_add (p.fracBits + 1)]
    exact mul_lt_mul_of_pos_right hNlt (two_zpow_pos _)
  rw [roundExp]
  rcases ht with rfl | hnormal
  · omega
  · have hbelow : (p.fracBits : Int) + (p.ulpMin + t) < floorLog2 n d + 1 + e := by
      have hNle : (2 : ℚ) ^ (p.fracBits : Int) ≤ N := by exact_mod_cast hnormal
      refine exponent_lt_of_le_of_lt ?_ hhigh'
      rw [two_zpow_add p.fracBits]
      exact mul_le_mul_of_nonneg_right hNle (two_zpow_pos _).le
    omega

/-- An exact quotient is not rounded up. -/
theorem roundsUp_zero (mode : RoundingMode) (neg : Bool) (q : Nat) {den : Nat} (h : den ≠ 0) :
    roundsUp mode neg q 0 den = false := by
  cases mode <;> simp [roundsUp, h, h.symm]

/-- A quotient that is a significand at a place of the precision has that significand and that place as its magnitude. -/
theorem roundNonzero_of_exact (mode : RoundingMode) (neg : Bool) (hn : n ≠ 0) (hd : d ≠ 0) (hN : N < 2 ^ (p.fracBits + 1))
    (ht : t = 0 ∨ 2 ^ p.fracBits ≤ N) (hx : (n : ℚ) / d * 2 ^ e = N * 2 ^ (p.ulpMin + t))
    (hfin : t * 2 ^ p.fracBits + N < infMagnitude p) :
    roundNonzero p mode neg n d e = t * 2 ^ p.fracBits + N := by
  have hexp := roundExp_of_exact hn hd hN ht hx
  have hdpos : 0 < d := Nat.pos_of_ne_zero hd
  have hnum : n * 2 ^ (e - (p.ulpMin + t)).toNat = N * (d * 2 ^ (p.ulpMin + t - e).toNat) := by
    have hquot : (n : ℚ) / d * 2 ^ (e - (p.ulpMin + t)) = N := by
      rw [zpow_sub₀ two_ne_zero, ← mul_div_assoc, hx, mul_div_assoc, div_self (two_zpow_pos _).ne', mul_one]
    have hden : (d : ℚ) ≠ 0 := by exact_mod_cast hd
    have hpow : ((2 ^ (p.ulpMin + t - e).toNat : Nat) : ℚ) ≠ 0 := by exact_mod_cast (Nat.two_pow_pos _).ne'
    rw [two_zpow_eq_div, Int.neg_sub, div_mul_div_comm, div_eq_iff (mul_ne_zero hden hpow)] at hquot
    exact_mod_cast hquot
  have hdenpos : 0 < d * 2 ^ (p.ulpMin + t - e).toNat := Nat.mul_pos hdpos (Nat.two_pow_pos _)
  have hplace : (p.ulpMin + (t : Int) - p.ulpMin).toNat = t := by omega
  simp only [roundNonzero, hexp, hnum, Nat.mul_div_cancel _ hdenpos, Nat.mul_mod_left, roundsUp_zero _ _ _ hdenpos.ne',
    hplace, Bool.false_eq_true, if_false, if_pos hfin]

end Exact

/-- The sign and the magnitude of a number are those of any signed product that it is. -/
theorem signedMag_mul_inj {s t : Bool} {m n : Nat} {x y : ℚ} (hx : 0 < x) (hy : 0 < y) (hn : n ≠ 0)
    (h : (signedMag s m : ℚ) * x = (signedMag t n : ℚ) * y) : s = t ∧ (m : ℚ) * x = n * y := by
  have hpos : 0 < (n : ℚ) * y := mul_pos (by exact_mod_cast Nat.pos_of_ne_zero hn) hy
  have hnonneg : 0 ≤ (m : ℚ) * x := mul_nonneg (Nat.cast_nonneg m) hx.le
  rw [signedMag_cast, signedMag_cast, mul_assoc, mul_assoc] at h
  cases s <;> cases t <;> simp at h
  · exact ⟨rfl, h⟩
  · exfalso; linarith
  · exfalso; linarith
  · exact ⟨rfl, h⟩

/-- A quotient that is the number of a pattern is rounded to that pattern. -/
theorem roundQuotient_of_floatIs {p : FloatPrec} {mode : RoundingMode} {neg : Bool} {n d : Nat} {e : Int}
    {c : BitVec p.width} {q : ℚ} (hd : d ≠ 0) (hc : FloatIs p c q) (hq : q ≠ 0)
    (hx : (signedMag neg n : ℚ) * (2 ^ e / d) = q) : roundQuotient p mode neg n d e = c := by
  have hval := (floatIs_iff p c q).mp hc
  obtain ⟨s, m, f, hfin, -⟩ := hval.exists_fin
  have hlt := lt_infMagnitude_of_fin hfin
  obtain ⟨t, N, hval', hmag, hN, ht⟩ := floatValue_of_lt_infMagnitude hlt
  rw [hval'] at hval
  have hN0 : N ≠ 0 := mt hval.eq_zero_iff.mpr hq
  have hdpos : (0 : ℚ) < d := by exact_mod_cast Nat.pos_of_ne_zero hd
  obtain ⟨hs, habs⟩ := signedMag_mul_inj (div_pos (two_zpow_pos e) hdpos) (two_zpow_pos _) hN0
    (hx.trans (FloatVal.is_fin.mp hval))
  have hn : n ≠ 0 := by
    rintro rfl
    rw [signedMag_eq_zero.mpr rfl, Int.cast_zero, zero_mul] at hx
    exact hq hx.symm
  have hexact : (n : ℚ) / d * 2 ^ e = N * 2 ^ (p.ulpMin + t) := by
    rw [← habs, div_mul_eq_mul_div, mul_div_assoc]
  rw [roundQuotient, if_neg hn, roundNonzero_of_exact mode neg hn hd hN ht hexact (hmag ▸ hlt), ← hmag, hs,
    floatPattern_floatMag]

/-- An exact value that is the number of a pattern is rounded to that pattern. -/
theorem roundValue_of_floatIs {p : FloatPrec} {mode : RoundingMode} {nan : Word} {v : FloatVal} {c : BitVec p.width} {q : ℚ}
    (hv : v.Is q) (hc : FloatIs p c q) (hq : q ≠ 0) : roundValue p mode nan v = c := by
  obtain ⟨neg, m, e, rfl, rfl⟩ := hv.exists_fin
  exact roundQuotient_of_floatIs Nat.one_ne_zero hc hq (by rw [Nat.cast_one, div_one])

/-- As the result of an operation too, when no choice of FLOAT_NUMERICS replaces the pattern (log 21). -/
theorem opResult_of_floatIs {op : FloatOp} {p : FloatPrec} {nan : Word} {v : FloatVal} {c : BitVec p.width} {q : ℚ}
    (hv : v.Is q) (hc : FloatIs p c q) (hq : q ≠ 0) (hsub : floatIsSubnormal p c = false) :
    opResult op p nan v = c := by
  rw [opResult, roundValue_of_floatIs hv hc hq, flushResult_of_not_subnormal op hsub]

/-- A zero is rounded to a zero, which is plain. -/
theorem opResult_of_zero {op : FloatOp} {p : FloatPrec} {nan : Word} {v : FloatVal} (hv : v.Is 0) :
    ∃ neg, opResult op p nan v = floatPattern p neg 0 := by
  obtain ⟨neg, m, e, rfl, -⟩ := hv.exists_fin
  refine ⟨neg, ?_⟩
  rw [opResult, roundValue, roundQuotient, if_pos (hv.eq_zero_iff.mp rfl),
    flushResult_of_not_subnormal op (not_subnormal_floatPattern_zero p neg)]

theorem floatValue_floatPattern_zero (p : FloatPrec) (neg : Bool) :
    floatValue p (floatPattern p neg 0) = .fin neg 0 p.ulpMin := by
  have hval := floatValue_floatPattern (p := p) neg (t := 0) (m := 0) (Nat.two_pow_pos _) (.inl rfl)
    (by rw [Nat.zero_mul]; exact (Nat.two_pow_pos _).trans (two_pow_fracBits_lt_infMagnitude p))
  rwa [Nat.zero_mul, Nat.add_zero, Nat.cast_zero, add_zero] at hval

/-- The zero patterns are the number 0. -/
theorem floatIs_floatPattern_zero (p : FloatPrec) (neg : Bool) : FloatIs p (floatPattern p neg 0) 0 := by
  rw [floatIs_iff, floatValue_floatPattern_zero, FloatVal.is_fin, signedMag_eq_zero.mpr rfl, Int.cast_zero, zero_mul]

/-! ### Numbers that a precision has -/

/-- A significand of at most the precision's places, at an exponent that leaves room for normalising it, is the number of
a normal pattern. -/
theorem exists_floatIs {p : FloatPrec} (neg : Bool) {m : Nat} {e : Int} (hm0 : m ≠ 0) (hm : m < 2 ^ (p.fracBits + 1))
    (hlow : p.ulpMin + p.fracBits ≤ e) (hhigh : e - p.ulpMin + 2 ≤ p.expMax) :
    ∃ c, FloatIs p c ((signedMag neg m : ℚ) * 2 ^ e) ∧ floatIsSubnormal p c = false := by
  have hlog : m.log2 ≤ p.fracBits := Nat.le_of_lt_succ ((Nat.log2_lt hm0).mpr hm)
  obtain ⟨k, hk⟩ := Nat.exists_eq_add_of_le hlog
  obtain ⟨t, ht⟩ := Int.eq_ofNat_of_zero_le (show 0 ≤ e - k - p.ulpMin by omega)
  have hlarge : 2 ^ p.fracBits ≤ m * 2 ^ k := by
    rw [hk, pow_add]
    exact Nat.mul_le_mul_right _ (Nat.log2_self_le hm0)
  have hsmall : m * 2 ^ k < 2 ^ (p.fracBits + 1) := by
    rw [hk, Nat.add_right_comm, pow_add]
    exact Nat.mul_lt_mul_of_pos_right Nat.lt_log2_self (Nat.two_pow_pos k)
  have hfin : t * 2 ^ p.fracBits + m * 2 ^ k < infMagnitude p := by
    have htmax : t + 2 ≤ p.expMax := by omega
    have := Nat.mul_le_mul_right (2 ^ p.fracBits) htmax
    rw [infMagnitude]
    rw [Nat.add_mul] at this
    rw [Nat.pow_succ] at hsmall
    omega
  refine ⟨floatPattern p neg (t * 2 ^ p.fracBits + m * 2 ^ k), ?_, ?_⟩
  · have hexp : e = k + (p.ulpMin + t) := by omega
    rw [floatIs_iff, floatValue_floatPattern neg hsmall (.inr hlarge) hfin, FloatVal.is_fin, signedMag_cast, signedMag_cast,
      hexp, two_zpow_add, Nat.cast_mul, Nat.cast_pow, Nat.cast_ofNat, zpow_natCast, mul_assoc, mul_assoc, mul_assoc]
  · rw [not_subnormal_iff, floatMag_floatPattern neg (hfin.trans (infMagnitude_lt p))]
    exact .inr (hlarge.trans (Nat.le_add_left _ _))

end Sys2Proof.Machine

/-! PROOF. Proofs/FloatExactness: the operations and the cross-precision cast where their exact result is a number that the
precision has (R415, R465, R466, R468; logs 21, 24, 27). -/
namespace Sys2Proof.Machine

/-! ### Square roots -/

/-- The bit-by-bit search keeps the root between its candidate and the next one. -/
theorem isqrtFrom_bounds (k : Nat) : ∀ {n acc : Nat}, acc * acc ≤ n → n < (acc + 2 ^ k) * (acc + 2 ^ k) →
    isqrtFrom k n acc * isqrtFrom k n acc ≤ n ∧ n < (isqrtFrom k n acc + 1) * (isqrtFrom k n acc + 1) := by
  induction k with
  | zero => exact fun hlow hhigh => ⟨hlow, hhigh⟩
  | succ j ih =>
    intro n acc hlow hhigh
    rw [isqrtFrom]
    split
    next h =>
      apply ih h
      rwa [Nat.add_assoc, ← Nat.two_mul, ← Nat.pow_succ']
    next h => exact ih hlow (Nat.not_le.mp h)

/-- The bit-by-bit root is the floor of the square root. -/
theorem isqrt_eq (n : Nat) : isqrt n = n.sqrt := by
  have hhigh : n < (0 + 2 ^ (n.log2 / 2 + 1)) * (0 + 2 ^ (n.log2 / 2 + 1)) := by
    rw [Nat.zero_add, ← pow_add]
    exact Nat.lt_log2_self.trans_le (Nat.pow_le_pow_right two_pos (by omega))
  exact Nat.eq_sqrt.mpr (isqrtFrom_bounds _ (Nat.zero_le n) hhigh)

/-- The square root of the square of a positive number is that number (R465). -/
theorem sqrtValue_is {p : FloatPrec} {x : FloatVal} {b : ℚ} (hb : 0 < b) (hx : x.Is (b * b)) : (sqrtValue p x).Is b := by
  obtain ⟨s, m, e, rfl, hval⟩ := hx.exists_fin
  have hm : m ≠ 0 := mt hx.eq_zero_iff.mpr (mul_pos hb hb).ne'
  have hs : s = false := by
    have hone : (signedMag false 1 : ℚ) * (b * b) = signedMag s m * 2 ^ e := by simpa [signedMag] using hval
    exact (signedMag_mul_inj (mul_pos hb hb) (two_zpow_pos e) hm hone).1.symm
  subst hs
  rw [sqrtValue, if_neg hm, if_neg Bool.false_ne_true]
  generalize hk : 2 * (p.fracBits + 4) + (e % 2).toNat = k
  obtain ⟨j, rfl⟩ : ∃ j : Int, e = k + 2 * j := ⟨(e - k) / 2, by omega⟩
  have hroot : b / 2 ^ j * (b / 2 ^ j) = ((m * 2 ^ k : Nat) : ℚ) := by
    have hj : (2 : ℚ) ^ (2 * j) = 2 ^ j * 2 ^ j := by rw [two_mul, two_zpow_add]
    rw [div_mul_div_comm, div_eq_iff (mul_pos (two_zpow_pos j) (two_zpow_pos j)).ne', hval, two_zpow_add, hj]
    simp [signedMag, mul_assoc]
  obtain ⟨r, hr⟩ := Rat.isSquare_natCast_iff.mp ⟨_, hroot.symm⟩
  have hbr : b / 2 ^ j = r := by
    rw [hr, Nat.cast_mul] at hroot
    exact (mul_self_inj (div_pos hb (two_zpow_pos j)).le (Nat.cast_nonneg r)).mp hroot
  have hexp : ((k : Int) + 2 * j - k) / 2 - 1 = j - 1 := by omega
  simp only [isqrt_eq, hr, Nat.sqrt_eq, if_true, hexp]
  rw [FloatVal.is_fin, (div_eq_iff (two_zpow_pos j).ne').mp hbr, zpow_sub₀ two_ne_zero, zpow_one, signedMag_cast]
  push_cast
  ring

theorem sqrtValue_of_neg {p : FloatPrec} {x : FloatVal} {q : ℚ} (hq : q < 0) (hx : x.Is q) : sqrtValue p x = .nan := by
  obtain ⟨s, m, e, rfl, hval⟩ := hx.exists_fin
  have hm : m ≠ 0 := mt hx.eq_zero_iff.mpr hq.ne
  cases s with
  | true => rw [sqrtValue, if_neg hm, if_pos rfl]
  | false =>
    have hnonneg : (0 : ℚ) ≤ m * 2 ^ e := mul_nonneg (Nat.cast_nonneg m) (two_zpow_pos e).le
    exact absurd (hval ▸ hq) (not_lt.mpr hnonneg)

/-! ### Quotients and multiply-adds -/

/-- The quotient of two signed magnitudes. -/
theorem signedMag_xor_div (s t : Bool) (m n : Nat) :
    (signedMag (s ^^ t) m : ℚ) / n = (signedMag s m : ℚ) / signedMag t n := by
  cases s <;> cases t <;> simp [signedMag, neg_div, div_neg]

/-- An exact quotient is delivered. -/
theorem floatDiv_of_floatIs {p : FloatPrec} {a b c : BitVec p.width} {qa qb qc : ℚ} (ha : (opValue .fdiv p a).Is qa)
    (hb : (opValue .fdiv p b).Is qb) (hc : FloatIs p c qc) (hsub : floatIsSubnormal p c = false) (hqb : qb ≠ 0)
    (hqc : qc ≠ 0) (h : qa / qb = qc) : floatDiv p a b = c := by
  obtain ⟨s, m, e, hva, rfl⟩ := ha.exists_fin
  obtain ⟨t, n, f, hvb, rfl⟩ := hb.exists_fin
  rw [hvb] at hb
  have hn : n ≠ 0 := mt hb.eq_zero_iff.mpr hqb
  have hquot : (signedMag (s ^^ t) m : ℚ) * (2 ^ (e - f) / n) = qc := by
    rw [← h, ← mul_div_assoc, mul_div_right_comm, signedMag_xor_div, zpow_sub₀ two_ne_zero, div_mul_div_comm]
  simp only [floatDiv, hva, hvb, if_neg hn]
  rw [roundQuotient_of_floatIs hn hc hqc hquot, flushResult_of_not_subnormal .fdiv hsub]

/-- A product that is the number of a plain pattern is the same addend whether or not it is rounded (log 24). -/
theorem fmaProduct_is {p : FloatPrec} {nan : Word} {v : FloatVal} {q : ℚ} (hv : v.Is q)
    (h : Config.fmaRoundsOnce p = true ∨ ∃ m, FloatIs p m q ∧ FloatPlain p m) :
    (if Config.fmaRoundsOnce p then v else opValue .fma p (opResult .fma p nan v)).Is q := by
  by_cases honce : Config.fmaRoundsOnce p = true
  · rwa [if_pos honce]
  · obtain ⟨m, hm, hplain⟩ := h.resolve_left honce
    rw [if_neg honce]
    by_cases hq : q = 0
    · subst hq
      obtain ⟨neg, hzero⟩ := opResult_of_zero (op := .fma) (p := p) (nan := nan) hv
      rw [hzero, opValue_of_not_subnormal .fma (not_subnormal_floatPattern_zero p neg)]
      exact (floatIs_iff p _ 0).mp (floatIs_floatPattern_zero p neg)
    · rw [opResult_of_floatIs hv hm hq hplain.1]
      exact opValue_is .fma hm hplain

/-- Settles O51: each exact operation answers the number of the result's pattern, and that is rounded to the pattern. -/
theorem floatExactResults : Obligations.FloatExactResults := by
  refine ⟨fun p a b c qa qb qc ha hb hc hpa hpb hpc hqc => ?_,
    fun p dest a b c qd qa qb qc hd ha hb hc hpd hpa hpb hpc hqc hround h => ?_⟩
  · have hva := fun op => opValue_is op ha hpa
    have hvb := fun op => opValue_is op hb hpb
    refine ⟨fun h => ?_, fun h => ?_, fun h => ?_, fun hqb h => ?_, fun hpos h => ?_, fun hneg => ?_⟩
    · exact opResult_of_floatIs (addValues_is (hva .fadd) (hvb .fadd)) (h ▸ hc) (h ▸ hqc) hpc.1
    · rw [sub_eq_add_neg] at h
      exact opResult_of_floatIs (addValues_is (hva .fsub) (negValue_is (hvb .fsub))) (h ▸ hc) (h ▸ hqc) hpc.1
    · exact opResult_of_floatIs (mulValues_is (hva .fmul) (hvb .fmul)) (h ▸ hc) (h ▸ hqc) hpc.1
    · exact floatDiv_of_floatIs (hva .fdiv) (hvb .fdiv) hc hpc.1 hqb hqc h
    · exact opResult_of_floatIs (sqrtValue_is hpos (h.symm ▸ hva .fsqrt)) hb hpos.ne' hpb.1
    · rw [floatSqrt, sqrtValue_of_neg hneg (hva .fsqrt)]
      exact floatIsNan_opResult_nan .fsqrt p _
  · have hproduct := mulValues_is (opValue_is .fma ha hpa) (opValue_is .fma hb hpb)
    have hsum := addValues_is (mode := Config.rounding .fma p) (opValue_is .fma hd hpd)
      (fmaProduct_is (nan := Config.nanBits .fma p (patWord p dest) (patWord p a) (patWord p b)) hproduct hround)
    exact opResult_of_floatIs hsum (h ▸ hc) (h ▸ hqc) hpc.1

/-! ### The cross-precision cast (R415, R468; log 27) -/

/-- A cast to another precision rounds the value. -/
theorem floatCast_of_ne {f t : FloatPrec} (h : f ≠ t) (a : BitVec f.width) :
    floatCast f t a =
      roundValue t (Config.rounding .fcnv t) (Config.nanBits .fcnv t (patWord f a) 0 0) (floatValue f a) := by
  rw [floatCast, if_neg h]

/-- Two patterns of one number other than 0 are the same. -/
theorem floatIs_unique {p : FloatPrec} {a b : BitVec p.width} {q : ℚ} (ha : FloatIs p a q) (hb : FloatIs p b q)
    (hq : q ≠ 0) : a = b := by
  have hv := (floatIs_iff p a q).mp ha
  exact (roundValue_of_floatIs (mode := .towardZero) (nan := 0) hv ha hq).symm.trans (roundValue_of_floatIs hv hb hq)

/-- A number that both precisions have is converted to its pattern. -/
theorem floatCast_of_floatIs {f t : FloatPrec} {a : BitVec f.width} {b : BitVec t.width} {q : ℚ} (ha : FloatIs f a q)
    (hb : FloatIs t b q) (hq : q ≠ 0) : floatCast f t a = b := by
  by_cases h : f = t
  · subst h
    rw [floatCast_self]
    exact floatIs_unique ha hb hq
  · rw [floatCast_of_ne h]
    exact roundValue_of_floatIs ((floatIs_iff f a q).mp ha) hb hq

/-- No number is rounded to a NaN. -/
theorem roundNonzero_le (p : FloatPrec) (mode : RoundingMode) (neg : Bool) (n d : Nat) (e : Int) :
    roundNonzero p mode neg n d e ≤ infMagnitude p := by
  have hover : overflowMagnitude p mode neg ≤ infMagnitude p := by
    cases mode <;> cases neg <;> simp [overflowMagnitude]
  have hcapped : ∀ mag, (if mag < infMagnitude p then mag else overflowMagnitude p mode neg) ≤ infMagnitude p := by
    intro mag
    split
    next h => exact h.le
    next => exact hover
  exact hcapped _

theorem floatIsNan_floatPattern_of_le {p : FloatPrec} (neg : Bool) {mag : Nat} (h : mag ≤ infMagnitude p) :
    floatIsNan p (floatPattern p neg mag) = false := by
  rw [not_nan_iff, floatMag_floatPattern neg (h.trans_lt (infMagnitude_lt p))]
  exact h

/-- Rounding keeps the NaN test. -/
theorem floatIsNan_roundValue (p : FloatPrec) (mode : RoundingMode) (nan : Word) (v : FloatVal) :
    floatIsNan p (roundValue p mode nan v) = true ↔ v = .nan := by
  cases v with
  | nan => simp [roundValue, floatIsNan_nanPattern]
  | inf neg => simp [roundValue, floatIsNan_floatPattern_of_le neg le_rfl]
  | fin neg m e =>
    have hle : (if m = 0 then 0 else roundNonzero p mode neg m 1 e) ≤ infMagnitude p := by
      split
      · exact Nat.zero_le _
      · exact roundNonzero_le p mode neg m 1 e
    simp [roundValue, roundQuotient, floatIsNan_floatPattern_of_le neg hle]

theorem floatValue_eq_nan_iff (p : FloatPrec) (a : BitVec p.width) : floatValue p a = .nan ↔ floatIsNan p a = true := by
  refine ⟨fun h => ?_, floatValue_of_nan⟩
  rw [floatValue] at h
  split_ifs at h with hmax hfrac
  simp [floatIsNan, hmax, hfrac]

/-- A cast keeps the NaN test. -/
theorem floatIsNan_floatCast (f t : FloatPrec) (a : BitVec f.width) :
    floatIsNan t (floatCast f t a) = floatIsNan f a := by
  by_cases h : f = t
  · subst h
    rw [floatCast_self]
  · rw [floatCast_of_ne h, Bool.eq_iff_iff, floatIsNan_roundValue, floatValue_eq_nan_iff]

/-- Every number of the single precision is one of the double precision. -/
theorem exists_double_of_single {a : BitVec FloatPrec.single.width} {q : ℚ} (h : FloatIs .single a q) (hq : q ≠ 0) :
    ∃ b, FloatIs .double b q := by
  have hv := (floatIs_iff .single a q).mp h
  obtain ⟨s, m, e, hfin, -⟩ := hv.exists_fin
  have hlt := lt_infMagnitude_of_fin hfin
  obtain ⟨t, N, hval, hmag, hN, -⟩ := floatValue_of_lt_infMagnitude hlt
  rw [hval] at hv
  have hinf : infMagnitude .single = 255 * 2 ^ 23 := rfl
  have hfrac : FloatPrec.single.fracBits = 23 := rfl
  rw [hmag, hinf, hfrac] at hlt
  rw [hfrac] at hN
  have hulp : FloatPrec.single.ulpMin = -149 := rfl
  obtain ⟨b, hb, -⟩ := exists_floatIs (p := .double) (floatNegative .single a) (m := N)
    (e := FloatPrec.single.ulpMin + t) (mt hv.eq_zero_iff.mpr hq)
    (hN.trans (by decide))
    (show (-1074 : Int) + 52 ≤ _ by omega) (show _ - (-1074 : Int) + 2 ≤ 2047 by omega)
  exact ⟨b, (FloatVal.is_fin.mp hv) ▸ hb⟩

/-- The infinities are the only patterns with an infinity as value. -/
theorem floatValue_eq_inf_iff {p : FloatPrec} {a : BitVec p.width} {neg : Bool} :
    floatValue p a = .inf neg ↔ a = floatPattern p neg (infMagnitude p) := by
  constructor
  · intro h
    rw [floatValue] at h
    split_ifs at h with hmax hfrac
    injection h with hneg
    rw [← floatPattern_floatMag p a, hneg, floatMag_eq, hmax, hfrac, infMagnitude, Nat.add_zero]
  · rintro rfl
    have hmag := floatMag_floatPattern (p := p) neg (infMagnitude_lt p)
    have hmax := (floatExp_eq_expMax_iff p (floatPattern p neg (infMagnitude p))).mpr hmag.ge
    have hfrac : floatFrac p (floatPattern p neg (infMagnitude p)) = 0 := by
      rw [floatFrac_eq, hmag, infMagnitude, Nat.mul_mod_left]
    rw [floatValue, if_pos hmax, if_pos hfrac, floatNegative_floatPattern neg (infMagnitude_lt p)]

/-- A pattern with the value 0 is a zero of that sign. -/
theorem eq_floatPattern_zero {p : FloatPrec} {a : BitVec p.width} {neg : Bool} {e : Int}
    (h : floatValue p a = .fin neg 0 e) : a = floatPattern p neg 0 := by
  obtain ⟨t, m, hval, hmag, -, ht⟩ := floatValue_of_lt_infMagnitude (lt_infMagnitude_of_fin h)
  have hpos := Nat.two_pow_pos p.fracBits
  rw [h] at hval
  injection hval with hneg hm _
  have ht0 : t = 0 := by omega
  rw [← floatPattern_floatMag p a, ← hneg, hmag, ht0, ← hm, Nat.zero_mul]

/-- A cast keeps an infinity and its sign (log 27). -/
theorem floatCast_inf {f t : FloatPrec} (h : f ≠ t) (neg : Bool) :
    floatCast f t (floatPattern f neg (infMagnitude f)) = floatPattern t neg (infMagnitude t) := by
  rw [floatCast_of_ne h, floatValue_eq_inf_iff.mpr rfl, roundValue]

/-- A cast keeps a zero and its sign (log 27). -/
theorem floatCast_zero {f t : FloatPrec} (h : f ≠ t) (neg : Bool) :
    floatCast f t (floatPattern f neg 0) = floatPattern t neg 0 := by
  rw [floatCast_of_ne h, floatValue_floatPattern_zero, roundValue, roundQuotient, if_pos rfl]

/-- A single pattern that is not a NaN comes back from the double precision (R468). -/
theorem floatCast_single_double_single {a : BitVec FloatPrec.single.width} (h : floatIsNan .single a = false) :
    floatCast .double .single (floatCast .single .double a) = a := by
  have hsd : FloatPrec.single ≠ .double := by decide
  cases hval : floatValue .single a with
  | nan =>
    rw [floatValue_eq_nan_iff, h] at hval
    exact absurd hval Bool.false_ne_true
  | inf neg => rw [floatValue_eq_inf_iff.mp hval, floatCast_inf hsd, floatCast_inf hsd.symm]
  | fin neg m e =>
    have ha : FloatIs .single a ((signedMag neg m : ℚ) * 2 ^ e) := by
      rw [floatIs_iff, hval]
      exact FloatVal.is_fin.mpr rfl
    by_cases hm : m = 0
    · subst hm
      rw [eq_floatPattern_zero hval, floatCast_zero hsd, floatCast_zero hsd.symm]
    · have hq : (signedMag neg m : ℚ) * 2 ^ e ≠ 0 := mt (FloatVal.is_fin.mpr rfl).eq_zero_iff.mp hm
      obtain ⟨b, hb⟩ := exists_double_of_single ha hq
      rw [floatCast_of_floatIs ha hb hq, floatCast_of_floatIs hb ha hq]

/-- Settles O50: a cast rounds the value, and a number that both precisions have is not changed by that. -/
theorem floatCastRoundTrip : Obligations.FloatCastRoundTrip :=
  ⟨floatCast_self, fun _ h => floatCast_single_double_single h, floatIsNan_floatCast,
    fun _ _ _ _ _ ha hb hq => floatCast_of_floatIs ha hb hq⟩

end Sys2Proof.Machine

/-! PROOF. Proofs/FloatIntegers: rounding up to an integral value, and the casts to and from integers (R402, R403, R414,
R464, R467; logs 25, 26). -/
namespace Sys2Proof.Machine

/-! ### Integral parts -/

/-- The floor of a significand at an exponent. -/
theorem floor_mul_two_zpow (m : Nat) (e : Int) : ⌊(m : ℚ) * 2 ^ e⌋ = ((m * 2 ^ e.toNat / 2 ^ (-e).toNat : Nat) : Int) := by
  rw [two_zpow_eq_div, ← mul_div_assoc, ← Nat.cast_mul]
  exact Rat.floor_natCast_div_natCast _ _

/-- The integer part of a value is that of the number, toward zero (R464). -/
theorem truncValue_of_is {x : FloatVal} {q : ℚ} (h : x.Is q) : truncValue x = some (if 0 ≤ q then ⌊q⌋ else ⌈q⌉) := by
  obtain ⟨neg, m, e, rfl, hval⟩ := h.exists_fin
  have hnonneg : (0 : ℚ) ≤ m * 2 ^ e := mul_nonneg (Nat.cast_nonneg m) (two_zpow_pos e).le
  rw [truncValue, Option.some_inj]
  cases neg with
  | false =>
    have hq : q = m * 2 ^ e := hval
    rw [hq, if_pos hnonneg, floor_mul_two_zpow]
    rfl
  | true =>
    have hq : q = -(m * 2 ^ e) := by
      rw [hval, signedMag_cast, if_pos rfl, neg_one_mul, neg_mul]
    have htrunc : signedMag true (m * 2 ^ e.toNat / 2 ^ (-e).toNat) = ⌈q⌉ := by
      rw [hq, Int.ceil_neg, floor_mul_two_zpow]
      rfl
    split
    next h0 =>
      have hzero : q = 0 := le_antisymm (hq ▸ neg_nonpos.mpr hnonneg) h0
      rw [htrunc, hzero, Int.ceil_zero, Int.floor_zero]
    next => exact htrunc

/-- Where the places below 1 of a value are 0, the number is an integer. -/
theorem ceil_of_integral {neg : Bool} {m : Nat} {e : Int} {q : ℚ} (h : (FloatVal.fin neg m e).Is q)
    (hm : m % 2 ^ (-e).toNat = 0) : (⌈q⌉ : ℚ) = q := by
  obtain ⟨c, rfl⟩ := Nat.dvd_of_mod_eq_zero hm
  have hden : ((2 ^ (-e).toNat : Nat) : ℚ) ≠ 0 := by exact_mod_cast (Nat.two_pow_pos _).ne'
  have hq : q = ((signedMag neg (c * 2 ^ e.toNat) : Int) : ℚ) := by
    rw [FloatVal.is_fin.mp h, signedMag_cast, signedMag_cast, two_zpow_eq_div]
    push_cast at hden ⊢
    field_simp
  rw [hq, Int.ceil_intCast]

/-- The integral value that a value is rounded up to is the ceiling of the number (R467). -/
theorem ceilValue_is {zeroNeg : Bool} {x : FloatVal} {q : ℚ} (h : x.Is q) : (ceilValue zeroNeg x).Is ⌈q⌉ := by
  obtain ⟨neg, m, e, rfl, hval⟩ := h.exists_fin
  by_cases hint : m % 2 ^ (-e).toNat = 0
  · simp only [ceilValue, if_pos hint]
    rw [ceil_of_integral h hint]
    exact h
  · have hexp : e.toNat = 0 := by
      by_contra hne
      have hneg : (-e).toNat = 0 := by omega
      rw [hneg, pow_zero, Nat.mod_one] at hint
      exact hint rfl
    have hfloor := floor_mul_two_zpow m e
    rw [hexp, pow_zero, Nat.mul_one] at hfloor
    simp only [ceilValue, if_neg hint]
    cases neg with
    | true =>
      have hceil : ⌈q⌉ = -((m / 2 ^ (-e).toNat : Nat) : Int) := by
        rw [hval, signedMag_cast, if_pos rfl, neg_one_mul, neg_mul, Int.ceil_neg, hfloor]
      rw [if_pos rfl, hceil]
      split
      next hzero => rw [FloatVal.is_fin, hzero, signedMag_eq_zero.mpr rfl, Nat.cast_zero, neg_zero, Int.cast_zero, zero_mul]
      next => rw [FloatVal.is_fin, zpow_zero, mul_one]; rfl
    | false =>
      have hne : (⌊(m : ℚ) * 2 ^ e⌋ : ℚ) ≠ m * 2 ^ e := by
        intro heq
        rw [hfloor, two_zpow_eq_div, hexp, pow_zero, Nat.cast_one, mul_one_div,
          eq_div_iff (by exact_mod_cast (Nat.two_pow_pos _).ne')] at heq
        have hdvd : m / 2 ^ (-e).toNat * 2 ^ (-e).toNat = m := by exact_mod_cast heq
        exact hint (Nat.mod_eq_zero_of_dvd ⟨_, by rw [Nat.mul_comm]; exact hdvd.symm⟩)
      have hceil : ⌈q⌉ = ((m / 2 ^ (-e).toNat + 1 : Nat) : Int) := by
        have hq : q = m * 2 ^ e := hval
        rw [Nat.cast_add, Nat.cast_one, ← hfloor, hq, Int.ceil_eq_iff]
        push_cast
        rw [add_sub_cancel_right]
        exact ⟨lt_of_le_of_ne (Int.floor_le _) hne, (Int.lt_floor_add_one _).le⟩
      rw [if_neg Bool.false_ne_true, hceil, FloatVal.is_fin, zpow_zero, mul_one]
      rfl

/-! ### Integers that a precision has -/

/-- An integer of at most the precision's places is the number of a normal pattern. -/
theorem exists_floatIs_int (p : FloatPrec) {z : Int} (hz : z ≠ 0) (h : z.natAbs < 2 ^ (p.fracBits + 1)) :
    ∃ c, FloatIs p c z ∧ floatIsSubnormal p c = false := by
  obtain ⟨c, hc, hsub⟩ := exists_floatIs (p := p) (decide (z < 0)) (e := 0) (Int.natAbs_ne_zero.mpr hz) h
    (by cases p <;> decide) (by cases p <;> decide)
  rw [signedMag_natAbs, zpow_zero, mul_one] at hc
  exact ⟨c, hc, hsub⟩

/-- A subnormal number lies strictly between -1 and 1, so no integer but 0 does. -/
theorem not_subnormal_of_int {p : FloatPrec} {c : BitVec p.width} {z : Int} (hc : FloatIs p c z) (hz : z ≠ 0) :
    floatIsSubnormal p c = false := by
  rw [Bool.eq_false_iff, Ne, floatIsSubnormal_iff]
  rintro ⟨-, hsmall⟩
  obtain ⟨t, m, hval, hmag, -, -⟩ := floatValue_of_lt_infMagnitude (hsmall.trans (two_pow_fracBits_lt_infMagnitude p))
  have hm : m < 2 ^ p.fracBits := by omega
  have ht : t = 0 := by
    by_contra hne
    have := Nat.le_mul_of_pos_left (2 ^ p.fracBits) (Nat.pos_of_ne_zero hne)
    omega
  subst ht
  rw [floatIs_iff, hval, FloatVal.is_fin, Nat.cast_zero, add_zero] at hc
  have habs : |(z : ℚ)| = m * 2 ^ p.ulpMin := by
    rw [hc, abs_mul, abs_of_pos (two_zpow_pos _), signedMag_cast]
    cases floatNegative p c <;> simp
  have hone : (1 : ℚ) ≤ |(z : ℚ)| := by exact_mod_cast Int.one_le_abs hz
  have hlt : (m : ℚ) * 2 ^ p.ulpMin < 2 ^ ((p.fracBits : Int) + p.ulpMin) := by
    have hmlt : (m : ℚ) < 2 ^ (p.fracBits : Int) := by exact_mod_cast hm
    rw [two_zpow_add]
    exact mul_lt_mul_of_pos_right hmlt (two_zpow_pos _)
  have hle : (2 : ℚ) ^ ((p.fracBits : Int) + p.ulpMin) ≤ 1 :=
    zpow_le_one_of_nonpos₀ one_le_two (by cases p <;> decide)
  linarith

/-- The ceiling of a plain number is 0 or the number of a normal pattern: the number itself where it is an integer, and
otherwise small enough to have all its places. -/
theorem exists_floatIs_ceil {p : FloatPrec} {a : BitVec p.width} {q : ℚ} (ha : FloatIs p a q)
    (hsub : floatIsSubnormal p a = false) (hz : ⌈q⌉ ≠ 0) : ∃ c, FloatIs p c ⌈q⌉ ∧ floatIsSubnormal p c = false := by
  have hv := (floatIs_iff p a q).mp ha
  obtain ⟨s, k, f, hfin, -⟩ := hv.exists_fin
  obtain ⟨t, m, hval, -, hm, -⟩ := floatValue_of_lt_infMagnitude (lt_infMagnitude_of_fin hfin)
  rw [hval] at hv
  rcases le_or_gt 0 (p.ulpMin + t) with hnonneg | hneg
  · have hden : (-(p.ulpMin + (t : Int))).toNat = 0 := by omega
    have hint : (⌈q⌉ : ℚ) = q := ceil_of_integral hv (by rw [hden, pow_zero, Nat.mod_one])
    exact ⟨a, hint.symm ▸ ha, hsub⟩
  · have habs : |q| ≤ 2 ^ p.fracBits := by
      have hmle : (m : ℚ) ≤ 2 ^ (p.fracBits + 1) := by exact_mod_cast hm.le
      have hexp : (2 : ℚ) ^ (p.ulpMin + t) ≤ 2 ^ (-1 : Int) := zpow_le_zpow_right₀ one_le_two (by omega)
      calc |q| = m * 2 ^ (p.ulpMin + t) := by
            rw [FloatVal.is_fin.mp hv, abs_mul, abs_of_pos (two_zpow_pos _), signedMag_cast]
            cases floatNegative p a <;> simp
        _ ≤ 2 ^ (p.fracBits + 1) * 2 ^ (-1 : Int) := mul_le_mul hmle hexp (two_zpow_pos _).le (by positivity)
        _ = 2 ^ p.fracBits := by rw [pow_succ, zpow_neg_one, mul_assoc, mul_inv_cancel₀ two_ne_zero, mul_one]
    obtain ⟨hlow, hhigh⟩ := abs_le.mp habs
    have hupper : ⌈q⌉ ≤ 2 ^ p.fracBits := Int.ceil_le.mpr (by exact_mod_cast hhigh)
    have hlower : -2 ^ p.fracBits ≤ ⌈q⌉ := by
      have := hlow.trans (Int.le_ceil q)
      exact_mod_cast this
    have hnat : ((2 ^ p.fracBits : Nat) : Int) = 2 ^ p.fracBits := by push_cast; rfl
    exact exists_floatIs_int p hz (by rw [pow_succ]; omega)

/-- Settles O53: the exact ceiling is the number of a pattern, and rounding keeps it. -/
theorem floatCeiling : Obligations.FloatCeiling := by
  intro p a q ha hplain
  have hceil := ceilValue_is (zeroNeg := Config.ceilZeroSign p (patWord p a)) (opValue_is .fsat ha hplain)
  rw [floatCeil]
  by_cases hz : ⌈q⌉ = 0
  · rw [hz, Int.cast_zero] at hceil ⊢
    obtain ⟨neg, hres⟩ := opResult_of_zero (op := .fsat) (p := p)
      (nan := Config.nanBits .fsat p (patWord p a) 0 0) hceil
    rw [hres]
    exact floatIs_floatPattern_zero p neg
  · obtain ⟨c, hc, hsub⟩ := exists_floatIs_ceil ha hplain.1 hz
    rwa [opResult_of_floatIs hceil hc (by exact_mod_cast hz) hsub]

/-! ### Integer casts (R402, R403, R464; log 25) -/

/-- A number is truncated, and given where the integer type has it. -/
theorem floatToInt_of_floatIs {p : FloatPrec} {a : BitVec p.width} {q : ℚ} (ha : FloatIs p a q) (hplain : FloatPlain p a) :
    floatToInt p a = if castInRange (Config.castInt p) (if 0 ≤ q then ⌊q⌋ else ⌈q⌉) = true
      then BitVec.ofInt 64 (if 0 ≤ q then ⌊q⌋ else ⌈q⌉) else 0 := by
  rw [floatToInt, truncValue_of_is (opValue_is .fto ha hplain)]

/-- An infinity or a NaN has no integer part. -/
theorem floatToInt_of_expMax {p : FloatPrec} {a : BitVec p.width} (h : floatExp p a = p.expMax) : floatToInt p a = 0 := by
  have hsub : floatIsSubnormal p a = false := by
    rw [not_subnormal_iff]
    exact .inr ((two_pow_fracBits_lt_infMagnitude p).le.trans ((floatExp_eq_expMax_iff p a).mp h))
  have hnone : truncValue (floatValue p a) = none := by
    rw [floatValue, if_pos h]
    split <;> rfl
  rw [floatToInt, opValue_of_not_subnormal .fto hsub, hnone]

theorem castInRange_iff (c : CastInt) (v : Int) : castInRange c v = true ↔
    if c.signed = true then -2 ^ (intBits c.width - 1) ≤ v ∧ v < 2 ^ (intBits c.width - 1)
    else 0 ≤ v ∧ v < 2 ^ intBits c.width := by
  rw [castInRange]
  split <;> simp

/-- The low bits of a register, read as a signed or an unsigned number. -/
theorem castOperand_eq (c : CastInt) (x : Word) : castOperand c x =
    if c.signed = true then (x.toNat : Int).bmod (2 ^ intBits c.width) else (x.toNat : Int) % 2 ^ intBits c.width := by
  have hlow : (x.extractLsb' 0 (intBits c.width)).toNat = x.toNat % 2 ^ intBits c.width := by
    rw [BitVec.extractLsb'_toNat, Nat.shiftRight_zero]
  rw [castOperand]
  split
  · rw [BitVec.toInt_eq_toNat_bmod, hlow, Int.natCast_mod, Int.emod_bmod]
  · rw [hlow]
    push_cast
    rfl

/-- Settles O54: truncation and conversion of the exact value, and the integer types' ranges. -/
theorem floatToInteger : Obligations.FloatToInteger := by
  refine ⟨fun p a q ha hplain => floatToInt_of_floatIs ha hplain, fun p a h => floatToInt_of_expMax h,
    fun p x b hne hb => ?_, fun p x hzero => ?_, fun c v => castInRange_iff c v, fun c x => castOperand_eq c x⟩
  · exact opResult_of_floatIs (FloatVal.is_ofInt _) hb (by exact_mod_cast hne) (not_subnormal_of_int hb hne)
  · simp only [floatFromInt, hzero]
    rw [opResult, roundValue, roundQuotient, if_pos (by decide)]
    exact flushResult_of_not_subnormal .ffrom (not_subnormal_floatPattern_zero p false)

end Sys2Proof.Machine
